-- ==== Sys2Proof/Word.lean ====
section
/-! DEFINITION. The word types of GBA-CORE (spec `00_scope.md` R6, R8) and the type of a sparse byte store. -/

namespace Sys2Proof

/-- A 32-bit value: a general register, an address, a status register (R6). -/
abbrev Word := BitVec 32

/-- One byte of memory. -/
abbrev Byte := BitVec 8

/-- A 16-bit value: a Thumb instruction, an I/O register. -/
abbrev Half := BitVec 16

/-- A sparse byte store: (index, byte) pairs in the canonical form of `Machine/Memory.lean`. -/
abbrev Memory := List Host.Cell

end Sys2Proof
end

