-- ==== Sys2Proof/Machine/Bits.lean ====
section
/-! DEFINITION. Bit fields, byte lanes, access widths, sign extension (spec `00_scope.md` R8, R9; `20_memory.md` R70). -/

namespace Sys2Proof.Machine

/-- `v` with bit `k` set to `b`. -/
def setBit (v : Word) (k : Nat) (b : Bool) : Word :=
  if b then v ||| (1#32 <<< k) else v &&& ~~~(1#32 <<< k)

/-- `old` with the bits of `mask` taken from `new`. -/
def mergeBits {n : Nat} (mask old new : BitVec n) : BitVec n :=
  (old &&& ~~~mask) ||| (new &&& mask)

/-- Byte lane `k` of a value: bits `8k+7 .. 8k` (R171: little-endian lanes). -/
def lane {n : Nat} (v : BitVec n) (k : Nat) : Byte :=
  v.extractLsb' (8 * k) 8

/-- `v` with byte lane `k` replaced by `b`. -/
def setLane {n : Nat} (v : BitVec n) (k : Nat) (b : Byte) : BitVec n :=
  (v &&& ~~~(BitVec.ofNat n 255 <<< (8 * k))) ||| (b.setWidth n <<< (8 * k))

/-- The three access sizes of the bus (R6: data bus widths 8, 16, 32 bits). -/
inductive Width where
  | byte
  | half
  | word
  deriving DecidableEq, Repr

/-- The number of bytes of an access. -/
def Width.bytes : Width → Nat
  | .byte => 1
  | .half => 2
  | .word => 4

/-- The address with the low bits cleared that an access of this size ignores (R89, R91). -/
def Width.align (w : Width) (a : Word) : Word :=
  match w with
  | .byte => a
  | .half => a &&& 0xFFFFFFFE#32
  | .word => a &&& 0xFFFFFFFC#32

/-- Little-endian assembly of the `w.bytes` bytes `f 0, f 1, …` into the low bits of a word (R70). -/
def assemble (w : Width) (f : Nat → Byte) : Word :=
  match w with
  | .byte => (f 0).setWidth 32
  | .half => (f 0).setWidth 32 ||| (f 1).setWidth 32 <<< 8
  | .word => (f 0).setWidth 32 ||| (f 1).setWidth 32 <<< 8 ||| (f 2).setWidth 32 <<< 16 ||| (f 3).setWidth 32 <<< 24

/-- `sext_N` of R9 on the low `n` bits of a word. -/
def sext (n : Nat) (v : Word) : Word :=
  (v.setWidth n).signExtend 32

/-- `ROR(v, n)` of R9. -/
def ror (v : Word) (n : Nat) : Word :=
  v.rotateRight n

end Sys2Proof.Machine
end

