-- ==== Sys2Proof/Machine/Regs.lean ====
section
/-! DEFINITION. The seven processor modes, the 31 physical general registers, the live view and the SPSRs
(spec `10_state.md` R21-R23, R26, R27). -/

namespace Sys2Proof

/-- A general register number 0..15 as an instruction names it (R9). -/
abbrev Reg := BitVec 4

/-- The seven processor modes (R27, R530). -/
inductive Mode where
  | usr
  | fiq
  | irq
  | svc
  | abt
  | und
  | sys
  deriving DecidableEq, Repr

/-- The value of CPSR[4:0] that names the mode (R27). -/
def Mode.bits : Mode → BitVec 5
  | .usr => 0x10#5
  | .fiq => 0x11#5
  | .irq => 0x12#5
  | .svc => 0x13#5
  | .abt => 0x17#5
  | .und => 0x1B#5
  | .sys => 0x1F#5

/-- The mode a 5-bit value names; the other 25 values name none (R27). -/
def Mode.ofBits (v : BitVec 5) : Option Mode :=
  if v = 0x10#5 then some .usr
  else if v = 0x11#5 then some .fiq
  else if v = 0x12#5 then some .irq
  else if v = 0x13#5 then some .svc
  else if v = 0x17#5 then some .abt
  else if v = 0x1B#5 then some .und
  else if v = 0x1F#5 then some .sys
  else none

/-- The 31 physical general registers (R21). -/
inductive PhysReg where
  | r0 | r1 | r2 | r3 | r4 | r5 | r6 | r7
  | r8usr | r9usr | r10usr | r11usr | r12usr
  | r8fiq | r9fiq | r10fiq | r11fiq | r12fiq
  | r13usr | r14usr
  | r13fiq | r14fiq
  | r13irq | r14irq
  | r13svc | r14svc
  | r13abt | r14abt
  | r13und | r14und
  | r15
  deriving DecidableEq, Repr

/-- The contents of the 31 physical general registers (R21). -/
structure Regs where
  r0 : Word
  r1 : Word
  r2 : Word
  r3 : Word
  r4 : Word
  r5 : Word
  r6 : Word
  r7 : Word
  r8usr : Word
  r9usr : Word
  r10usr : Word
  r11usr : Word
  r12usr : Word
  r8fiq : Word
  r9fiq : Word
  r10fiq : Word
  r11fiq : Word
  r12fiq : Word
  r13usr : Word
  r14usr : Word
  r13fiq : Word
  r14fiq : Word
  r13irq : Word
  r14irq : Word
  r13svc : Word
  r14svc : Word
  r13abt : Word
  r14abt : Word
  r13und : Word
  r14und : Word
  r15 : Word
  deriving DecidableEq, Repr

/-- The contents of one physical register. -/
def Regs.get (rf : Regs) : PhysReg → Word
  | .r0 => rf.r0 | .r1 => rf.r1 | .r2 => rf.r2 | .r3 => rf.r3
  | .r4 => rf.r4 | .r5 => rf.r5 | .r6 => rf.r6 | .r7 => rf.r7
  | .r8usr => rf.r8usr | .r9usr => rf.r9usr | .r10usr => rf.r10usr | .r11usr => rf.r11usr | .r12usr => rf.r12usr
  | .r8fiq => rf.r8fiq | .r9fiq => rf.r9fiq | .r10fiq => rf.r10fiq | .r11fiq => rf.r11fiq | .r12fiq => rf.r12fiq
  | .r13usr => rf.r13usr | .r14usr => rf.r14usr
  | .r13fiq => rf.r13fiq | .r14fiq => rf.r14fiq
  | .r13irq => rf.r13irq | .r14irq => rf.r14irq
  | .r13svc => rf.r13svc | .r14svc => rf.r14svc
  | .r13abt => rf.r13abt | .r14abt => rf.r14abt
  | .r13und => rf.r13und | .r14und => rf.r14und
  | .r15 => rf.r15

/-- One physical register replaced. -/
def Regs.set (rf : Regs) (p : PhysReg) (v : Word) : Regs :=
  match p with
  | .r0 => { rf with r0 := v } | .r1 => { rf with r1 := v } | .r2 => { rf with r2 := v } | .r3 => { rf with r3 := v }
  | .r4 => { rf with r4 := v } | .r5 => { rf with r5 := v } | .r6 => { rf with r6 := v } | .r7 => { rf with r7 := v }
  | .r8usr => { rf with r8usr := v } | .r9usr => { rf with r9usr := v } | .r10usr => { rf with r10usr := v }
  | .r11usr => { rf with r11usr := v } | .r12usr => { rf with r12usr := v }
  | .r8fiq => { rf with r8fiq := v } | .r9fiq => { rf with r9fiq := v } | .r10fiq => { rf with r10fiq := v }
  | .r11fiq => { rf with r11fiq := v } | .r12fiq => { rf with r12fiq := v }
  | .r13usr => { rf with r13usr := v } | .r14usr => { rf with r14usr := v }
  | .r13fiq => { rf with r13fiq := v } | .r14fiq => { rf with r14fiq := v }
  | .r13irq => { rf with r13irq := v } | .r14irq => { rf with r14irq := v }
  | .r13svc => { rf with r13svc := v } | .r14svc => { rf with r14svc := v }
  | .r13abt => { rf with r13abt := v } | .r14abt => { rf with r14abt := v }
  | .r13und => { rf with r13und := v } | .r14und => { rf with r14und := v }
  | .r15 => { rf with r15 := v }

/-- Every register zero: the default of the parameter `RESET_REGS` (R7, R60). -/
def Regs.zero : Regs :=
  ⟨0, 0, 0, 0, 0, 0, 0, 0, 0, 0, 0, 0, 0, 0, 0, 0, 0, 0, 0, 0, 0, 0, 0, 0, 0, 0, 0, 0, 0, 0, 0⟩

/-- r13 of a mode (R22). -/
def bank13 : Mode → PhysReg
  | .usr => .r13usr | .sys => .r13usr | .fiq => .r13fiq | .irq => .r13irq | .svc => .r13svc | .abt => .r13abt | .und => .r13und

/-- r14 of a mode (R22). -/
def bank14 : Mode → PhysReg
  | .usr => .r14usr | .sys => .r14usr | .fiq => .r14fiq | .irq => .r14irq | .svc => .r14svc | .abt => .r14abt | .und => .r14und

/-- The live view: the physical register that number `i` names in mode `m` (the table of R22). -/
def phys (m : Mode) (i : Reg) : PhysReg :=
  match i.toNat with
  | 0 => .r0 | 1 => .r1 | 2 => .r2 | 3 => .r3 | 4 => .r4 | 5 => .r5 | 6 => .r6 | 7 => .r7
  | 8 => if m = .fiq then .r8fiq else .r8usr
  | 9 => if m = .fiq then .r9fiq else .r9usr
  | 10 => if m = .fiq then .r10fiq else .r10usr
  | 11 => if m = .fiq then .r11fiq else .r11usr
  | 12 => if m = .fiq then .r12fiq else .r12usr
  | 13 => bank13 m
  | 14 => bank14 m
  | _ => .r15

/-- The five saved program status registers (R26). -/
structure Spsrs where
  fiq : Word
  irq : Word
  svc : Word
  abt : Word
  und : Word
  deriving DecidableEq, Repr

/-- The SPSR of a mode; USER and SYS have none (R26). -/
def Spsrs.get (p : Spsrs) : Mode → Option Word
  | .usr => none | .sys => none
  | .fiq => some p.fiq | .irq => some p.irq | .svc => some p.svc | .abt => some p.abt | .und => some p.und

/-- The SPSR of a mode replaced; nothing in USER and SYS, which have none (R26). -/
def Spsrs.set (p : Spsrs) (m : Mode) (v : Word) : Spsrs :=
  match m with
  | .usr => p | .sys => p
  | .fiq => { p with fiq := v } | .irq => { p with irq := v } | .svc => { p with svc := v }
  | .abt => { p with abt := v } | .und => { p with und := v }

/-- Every SPSR zero: the default of `RESET_REGS` (R7, R60). -/
def Spsrs.zero : Spsrs := ⟨0, 0, 0, 0, 0⟩

end Sys2Proof
end

