-- ==== Sys2Proof/Syntax.lean ====
section
/-! DEFINITION. The instructions of GBA-CORE: one constructor per row of `spec/opcode_table.json`, with the fields of
`30_encoding.md` R221-R258. ARM constructors carry their condition (R221). -/

namespace Sys2Proof

/-- A Thumb 3-bit register field, r0..r7 (R38). -/
abbrev LoReg := BitVec 3

/-- The sixteen condition codes (R221); `nv` is 0xF. -/
inductive Cond where
  | eq | ne | cs | cc | mi | pl | vs | vc | hi | ls | ge | lt | gt | le | al | nv
  deriving DecidableEq, Repr

/-- The four shift types (R237, R260). -/
inductive ShiftType where
  | lsl | lsr | asr | ror
  deriving DecidableEq, Repr

/-- Operand 2 of ARM data processing (R236, R237). -/
inductive Operand2 where
  | imm (rot : BitVec 4) (imm8 : BitVec 8)
  | shiftImm (rm : Reg) (ty : ShiftType) (amount : BitVec 5)
  | shiftReg (rm : Reg) (ty : ShiftType) (rs : Reg)
  deriving DecidableEq, Repr

/-- The offset of a single data transfer (R230, R322). -/
inductive Offset12 where
  | imm (imm12 : BitVec 12)
  | reg (rm : Reg) (ty : ShiftType) (amount : BitVec 5)
  deriving DecidableEq, Repr

/-- The offset of a halfword or signed transfer (R233, R330). -/
inductive Offset8 where
  | imm (imm8 : BitVec 8)
  | reg (rm : Reg)
  deriving DecidableEq, Repr

/-- The bits P, U, W of a single transfer (R230, R233). -/
structure Indexing where
  pre : Bool
  up : Bool
  wback : Bool
  deriving DecidableEq, Repr

/-- The bits P, U, S, W of a block transfer (R226). -/
structure BlockMode where
  pre : Bool
  up : Bool
  psr : Bool
  wback : Bool
  deriving DecidableEq, Repr

/-- One constructor per row of the opcode table, in the table's order; `arm…` are 32-bit words, `thumb…` 16-bit. -/
inductive Instr where
  | armBx (c : Cond) (rn : Reg)
  | armLdm (c : Cond) (m : BlockMode) (rn : Reg) (list : BitVec 16)
  | armStm (c : Cond) (m : BlockMode) (rn : Reg) (list : BitVec 16)
  | armB (c : Cond) (offset24 : BitVec 24)
  | armBl (c : Cond) (offset24 : BitVec 24)
  | armSwi (c : Cond) (comment24 : BitVec 24)
  | armUnd (c : Cond)
  | armLdr (c : Cond) (ix : Indexing) (rn rd : Reg) (off : Offset12)
  | armLdrb (c : Cond) (ix : Indexing) (rn rd : Reg) (off : Offset12)
  | armStr (c : Cond) (ix : Indexing) (rn rd : Reg) (off : Offset12)
  | armStrb (c : Cond) (ix : Indexing) (rn rd : Reg) (off : Offset12)
  | armSwp (c : Cond) (rn rd rm : Reg)
  | armSwpb (c : Cond) (rn rd rm : Reg)
  | armMul (c : Cond) (s : Bool) (rd rs rm : Reg)
  | armMla (c : Cond) (s : Bool) (rd rn rs rm : Reg)
  | armUmull (c : Cond) (s : Bool) (rdHi rdLo rs rm : Reg)
  | armUmlal (c : Cond) (s : Bool) (rdHi rdLo rs rm : Reg)
  | armSmull (c : Cond) (s : Bool) (rdHi rdLo rs rm : Reg)
  | armSmlal (c : Cond) (s : Bool) (rdHi rdLo rs rm : Reg)
  | armStrh (c : Cond) (ix : Indexing) (rn rd : Reg) (off : Offset8)
  | armLdrh (c : Cond) (ix : Indexing) (rn rd : Reg) (off : Offset8)
  | armLdrsb (c : Cond) (ix : Indexing) (rn rd : Reg) (off : Offset8)
  | armLdrsh (c : Cond) (ix : Indexing) (rn rd : Reg) (off : Offset8)
  | armLdrdPosition (c : Cond) (ix : Indexing) (rn rd : Reg) (off : Offset8)
  | armStrdPosition (c : Cond) (ix : Indexing) (rn rd : Reg) (off : Offset8)
  | armReservedSh00 (c : Cond)
  | armMrs (c : Cond) (spsr : Bool) (rd : Reg)
  | armReservedPsr (c : Cond)
  | armMsrReg (c : Cond) (spsr : Bool) (fm : BitVec 4) (rm : Reg)
  | armMsrImm (c : Cond) (spsr : Bool) (fm : BitVec 4) (rot : BitVec 4) (imm8 : BitVec 8)
  | armAnd (c : Cond) (s : Bool) (rn rd : Reg) (op2 : Operand2)
  | armEor (c : Cond) (s : Bool) (rn rd : Reg) (op2 : Operand2)
  | armSub (c : Cond) (s : Bool) (rn rd : Reg) (op2 : Operand2)
  | armRsb (c : Cond) (s : Bool) (rn rd : Reg) (op2 : Operand2)
  | armAdd (c : Cond) (s : Bool) (rn rd : Reg) (op2 : Operand2)
  | armAdc (c : Cond) (s : Bool) (rn rd : Reg) (op2 : Operand2)
  | armSbc (c : Cond) (s : Bool) (rn rd : Reg) (op2 : Operand2)
  | armRsc (c : Cond) (s : Bool) (rn rd : Reg) (op2 : Operand2)
  | armTst (c : Cond) (rn : Reg) (op2 : Operand2)
  | armTeq (c : Cond) (rn : Reg) (op2 : Operand2)
  | armCmp (c : Cond) (rn : Reg) (op2 : Operand2)
  | armCmn (c : Cond) (rn : Reg) (op2 : Operand2)
  | armOrr (c : Cond) (s : Bool) (rn rd : Reg) (op2 : Operand2)
  | armMov (c : Cond) (s : Bool) (rd : Reg) (op2 : Operand2)
  | armBic (c : Cond) (s : Bool) (rn rd : Reg) (op2 : Operand2)
  | armMvn (c : Cond) (s : Bool) (rd : Reg) (op2 : Operand2)
  | armNoClassCoprocTransfer (c : Cond)
  | armNoClassCoprocOperation (c : Cond)
  | thumbSwi (value8 : BitVec 8)
  | thumbB (off11 : BitVec 11)
  | thumbBcond (c : Cond) (soff8 : BitVec 8)
  | thumbStmia (rb : LoReg) (list : BitVec 8)
  | thumbLdmia (rb : LoReg) (list : BitVec 8)
  | thumbBlFirst (off11 : BitVec 11)
  | thumbBlSecond (off11 : BitVec 11)
  | thumbAddSp (imm7 : BitVec 7)
  | thumbSubSp (imm7 : BitVec 7)
  | thumbPush (lr : Bool) (list : BitVec 8)
  | thumbPop (pc : Bool) (list : BitVec 8)
  | thumbStrhImm (imm5 : BitVec 5) (rb rd : LoReg)
  | thumbLdrhImm (imm5 : BitVec 5) (rb rd : LoReg)
  | thumbStrSp (rd : LoReg) (imm8 : BitVec 8)
  | thumbLdrSp (rd : LoReg) (imm8 : BitVec 8)
  | thumbAddRdPc (rd : LoReg) (imm8 : BitVec 8)
  | thumbAddRdSp (rd : LoReg) (imm8 : BitVec 8)
  | thumbStrImm (imm5 : BitVec 5) (rb rd : LoReg)
  | thumbLdrImm (imm5 : BitVec 5) (rb rd : LoReg)
  | thumbStrbImm (imm5 : BitVec 5) (rb rd : LoReg)
  | thumbLdrbImm (imm5 : BitVec 5) (rb rd : LoReg)
  | thumbStrReg (ro rb rd : LoReg)
  | thumbStrbReg (ro rb rd : LoReg)
  | thumbLdrReg (ro rb rd : LoReg)
  | thumbLdrbReg (ro rb rd : LoReg)
  | thumbStrhReg (ro rb rd : LoReg)
  | thumbLdsbReg (ro rb rd : LoReg)
  | thumbLdrhReg (ro rb rd : LoReg)
  | thumbLdshReg (ro rb rd : LoReg)
  | thumbLdrPc (rd : LoReg) (imm8 : BitVec 8)
  | thumbAddHi (rd rs : Reg)
  | thumbCmpHi (rd rs : Reg)
  | thumbMovHi (rd rs : Reg)
  | thumbBx (rs : Reg)
  | thumbAnd (rs rd : LoReg)
  | thumbEor (rs rd : LoReg)
  | thumbLslReg (rs rd : LoReg)
  | thumbLsrReg (rs rd : LoReg)
  | thumbAsrReg (rs rd : LoReg)
  | thumbAdc (rs rd : LoReg)
  | thumbSbc (rs rd : LoReg)
  | thumbRor (rs rd : LoReg)
  | thumbTst (rs rd : LoReg)
  | thumbNeg (rs rd : LoReg)
  | thumbCmp (rs rd : LoReg)
  | thumbCmn (rs rd : LoReg)
  | thumbOrr (rs rd : LoReg)
  | thumbMul (rs rd : LoReg)
  | thumbBic (rs rd : LoReg)
  | thumbMvn (rs rd : LoReg)
  | thumbMovImm (rd : LoReg) (imm8 : BitVec 8)
  | thumbCmpImm (rd : LoReg) (imm8 : BitVec 8)
  | thumbAddImm8 (rd : LoReg) (imm8 : BitVec 8)
  | thumbSubImm8 (rd : LoReg) (imm8 : BitVec 8)
  | thumbAddReg (rn rs rd : LoReg)
  | thumbSubReg (rn rs rd : LoReg)
  | thumbAddImm3 (imm3 : BitVec 3) (rs rd : LoReg)
  | thumbSubImm3 (imm3 : BitVec 3) (rs rd : LoReg)
  | thumbLslImm (imm5 : BitVec 5) (rs rd : LoReg)
  | thumbLsrImm (imm5 : BitVec 5) (rs rd : LoReg)
  | thumbAsrImm (imm5 : BitVec 5) (rs rd : LoReg)
  | thumbNoClassE8
  | thumbNoClassB0
  deriving DecidableEq, Repr

end Sys2Proof
end

