-- ==== Sys2Proof/WellFormed.lean ====
section
/-! DEFINITION. The instructions that have an encoding (spec `30_encoding.md` R257: a Thumb conditional branch has no
condition 0xF, which is the software interrupt). Every other field has exactly the values its bits can hold. -/

namespace Sys2Proof

/-- The instruction has a word. -/
def Instr.wellFormed : Instr → Bool
  | .thumbBcond c _ => decide (c ≠ Cond.nv)
  | _ => true

/-- The instruction is a 16-bit Thumb instruction (R220); the others are 32-bit ARM instructions. -/
def Instr.isThumb : Instr → Bool
  | .armBx .. | .armLdm .. | .armStm .. | .armB .. | .armBl .. | .armSwi .. | .armUnd ..
  | .armLdr .. | .armLdrb .. | .armStr .. | .armStrb .. | .armSwp .. | .armSwpb ..
  | .armMul .. | .armMla .. | .armUmull .. | .armUmlal .. | .armSmull .. | .armSmlal ..
  | .armStrh .. | .armLdrh .. | .armLdrsb .. | .armLdrsh .. | .armLdrdPosition .. | .armStrdPosition ..
  | .armReservedSh00 .. | .armMrs .. | .armReservedPsr .. | .armMsrReg .. | .armMsrImm ..
  | .armAnd .. | .armEor .. | .armSub .. | .armRsb .. | .armAdd .. | .armAdc .. | .armSbc .. | .armRsc ..
  | .armTst .. | .armTeq .. | .armCmp .. | .armCmn .. | .armOrr .. | .armMov .. | .armBic .. | .armMvn ..
  | .armNoClassCoprocTransfer .. | .armNoClassCoprocOperation .. => false
  | _ => true

end Sys2Proof
end

