-- ==== Sys2Proof/Decode.lean ====
section
/-! DEFINITION. The decoder and the encoder (spec `30_encoding.md` R220-R258). The decoder tries the classes in the
spec's order on mask and match; every 32-bit and every 16-bit word is some row of the opcode table, so on whole words
decoding is total; bytes that hold no whole word are rejected by name. -/

namespace Sys2Proof

/-- The condition a 4-bit field names (R221). -/
def Cond.ofBits (v : BitVec 4) : Cond :=
  match v.toNat with
  | 0 => .eq | 1 => .ne | 2 => .cs | 3 => .cc | 4 => .mi | 5 => .pl | 6 => .vs | 7 => .vc
  | 8 => .hi | 9 => .ls | 10 => .ge | 11 => .lt | 12 => .gt | 13 => .le | 14 => .al | _ => .nv

/-- The 4-bit field of a condition (R221). -/
def Cond.toBits : Cond → BitVec 4
  | .eq => 0x0#4 | .ne => 0x1#4 | .cs => 0x2#4 | .cc => 0x3#4 | .mi => 0x4#4 | .pl => 0x5#4 | .vs => 0x6#4 | .vc => 0x7#4
  | .hi => 0x8#4 | .ls => 0x9#4 | .ge => 0xA#4 | .lt => 0xB#4 | .gt => 0xC#4 | .le => 0xD#4 | .al => 0xE#4 | .nv => 0xF#4

/-- The shift type a 2-bit field names (R237). -/
def ShiftType.ofBits (v : BitVec 2) : ShiftType :=
  match v.toNat with
  | 0 => .lsl | 1 => .lsr | 2 => .asr | _ => .ror

/-- The 2-bit field of a shift type (R237). -/
def ShiftType.toBits : ShiftType → BitVec 2
  | .lsl => 0#2 | .lsr => 1#2 | .asr => 2#2 | .ror => 3#2

/-- A word lies in the row `mask`, `value` (R222, R240). -/
def matchesRow {n : Nat} (w mask value : BitVec n) : Bool :=
  (w &&& mask) == value

/-- Operand 2 of a data-processing word (R236, R237). -/
def decodeOperand2 (w : BitVec 32) : Operand2 :=
  if w.getLsbD 25 then .imm (w.extractLsb' 8 4) (w.extractLsb' 0 8)
  else if w.getLsbD 4 then .shiftReg (w.extractLsb' 0 4) (ShiftType.ofBits (w.extractLsb' 5 2)) (w.extractLsb' 8 4)
  else .shiftImm (w.extractLsb' 0 4) (ShiftType.ofBits (w.extractLsb' 5 2)) (w.extractLsb' 7 5)

/-- The offset of a single data transfer: I = 1 is a register offset (R230). -/
def decodeOffset12 (w : BitVec 32) : Offset12 :=
  if w.getLsbD 25 then .reg (w.extractLsb' 0 4) (ShiftType.ofBits (w.extractLsb' 5 2)) (w.extractLsb' 7 5)
  else .imm (w.extractLsb' 0 12)

/-- The offset of a halfword or signed transfer: I = 1 is an immediate offset (R233). -/
def decodeOffset8 (w : BitVec 32) : Offset8 :=
  if w.getLsbD 22 then .imm (w.extractLsb' 8 4 ++ w.extractLsb' 0 4)
  else .reg (w.extractLsb' 0 4)

/-- The bits P, U, W of a transfer word (R230, R233). -/
def decodeIndexing (w : BitVec 32) : Indexing :=
  ⟨w.getLsbD 24, w.getLsbD 23, w.getLsbD 21⟩

/-- The bits P, U, S, W of a block transfer word (R226). -/
def decodeBlockMode (w : BitVec 32) : BlockMode :=
  ⟨w.getLsbD 24, w.getLsbD 23, w.getLsbD 22, w.getLsbD 21⟩

/-- The multiply class (R232): w[23] = 1 is long; U = w[22], A = w[21], S = w[20]. -/
def decodeMultiply (w : BitVec 32) : Instr :=
  let c := Cond.ofBits (w.extractLsb' 28 4)
  let s := w.getLsbD 20
  let hi : Reg := w.extractLsb' 16 4
  let lo : Reg := w.extractLsb' 12 4
  let rs : Reg := w.extractLsb' 8 4
  let rm : Reg := w.extractLsb' 0 4
  match w.getLsbD 23, w.getLsbD 22, w.getLsbD 21 with
  | false, _, false => .armMul c s hi rs rm
  | false, _, true => .armMla c s hi lo rs rm
  | true, false, false => .armUmull c s hi lo rs rm
  | true, false, true => .armUmlal c s hi lo rs rm
  | true, true, false => .armSmull c s hi lo rs rm
  | true, true, true => .armSmlal c s hi lo rs rm

/-- The halfword/signed class (R233): sub-decode by L = w[20], S = w[6], H = w[5]. -/
def decodeHalfSigned (w : BitVec 32) : Instr :=
  let c := Cond.ofBits (w.extractLsb' 28 4)
  let ix := decodeIndexing w
  let rn : Reg := w.extractLsb' 16 4
  let rd : Reg := w.extractLsb' 12 4
  match w.getLsbD 20, w.getLsbD 6, w.getLsbD 5 with
  | false, false, true => .armStrh c ix rn rd (decodeOffset8 w)
  | true, false, true => .armLdrh c ix rn rd (decodeOffset8 w)
  | true, true, false => .armLdrsb c ix rn rd (decodeOffset8 w)
  | true, true, true => .armLdrsh c ix rn rd (decodeOffset8 w)
  | false, true, false => .armLdrdPosition c ix rn rd (decodeOffset8 w)
  | false, true, true => .armStrdPosition c ix rn rd (decodeOffset8 w)
  | _, false, false => .armReservedSh00 c

/-- The PSR transfer class (R234): direction w[21], I = w[25], P = w[22]. -/
def decodePsrTransfer (w : BitVec 32) : Instr :=
  let c := Cond.ofBits (w.extractLsb' 28 4)
  let p := w.getLsbD 22
  match w.getLsbD 21, w.getLsbD 25 with
  | false, false => .armMrs c p (w.extractLsb' 12 4)
  | false, true => .armReservedPsr c
  | true, false => .armMsrReg c p (w.extractLsb' 16 4) (w.extractLsb' 0 4)
  | true, true => .armMsrImm c p (w.extractLsb' 16 4) (w.extractLsb' 8 4) (w.extractLsb' 0 8)

/-- The data-processing class (R235): opcode = w[24:21], S = w[20]. -/
def decodeDataProcessing (w : BitVec 32) : Instr :=
  let c := Cond.ofBits (w.extractLsb' 28 4)
  let s := w.getLsbD 20
  let rn : Reg := w.extractLsb' 16 4
  let rd : Reg := w.extractLsb' 12 4
  match (w.extractLsb' 21 4).toNat with
  | 0 => .armAnd c s rn rd (decodeOperand2 w)
  | 1 => .armEor c s rn rd (decodeOperand2 w)
  | 2 => .armSub c s rn rd (decodeOperand2 w)
  | 3 => .armRsb c s rn rd (decodeOperand2 w)
  | 4 => .armAdd c s rn rd (decodeOperand2 w)
  | 5 => .armAdc c s rn rd (decodeOperand2 w)
  | 6 => .armSbc c s rn rd (decodeOperand2 w)
  | 7 => .armRsc c s rn rd (decodeOperand2 w)
  | 8 => .armTst c rn (decodeOperand2 w)
  | 9 => .armTeq c rn (decodeOperand2 w)
  | 10 => .armCmp c rn (decodeOperand2 w)
  | 11 => .armCmn c rn (decodeOperand2 w)
  | 12 => .armOrr c s rn rd (decodeOperand2 w)
  | 13 => .armMov c s rd (decodeOperand2 w)
  | 14 => .armBic c s rn rd (decodeOperand2 w)
  | _ => .armMvn c s rd (decodeOperand2 w)

/-- `DecodeARM(w)`: the classes of R222 in their order, the first that matches. -/
def decodeArm (w : BitVec 32) : Instr :=
  let c := Cond.ofBits (w.extractLsb' 28 4)
  let rn : Reg := w.extractLsb' 16 4
  let rd : Reg := w.extractLsb' 12 4
  let rm : Reg := w.extractLsb' 0 4
  if matchesRow w 0x0FFFFFF0#32 0x012FFF10#32 then .armBx c rm
  else if matchesRow w 0x0E000000#32 0x08000000#32 then
    if w.getLsbD 20 then .armLdm c (decodeBlockMode w) rn (w.extractLsb' 0 16)
    else .armStm c (decodeBlockMode w) rn (w.extractLsb' 0 16)
  else if matchesRow w 0x0E000000#32 0x0A000000#32 then
    if w.getLsbD 24 then .armBl c (w.extractLsb' 0 24) else .armB c (w.extractLsb' 0 24)
  else if matchesRow w 0x0F000000#32 0x0F000000#32 then .armSwi c (w.extractLsb' 0 24)
  else if matchesRow w 0x0E000010#32 0x06000010#32 then .armUnd c
  else if matchesRow w 0x0C000000#32 0x04000000#32 then
    match w.getLsbD 20, w.getLsbD 22 with
    | true, false => .armLdr c (decodeIndexing w) rn rd (decodeOffset12 w)
    | true, true => .armLdrb c (decodeIndexing w) rn rd (decodeOffset12 w)
    | false, false => .armStr c (decodeIndexing w) rn rd (decodeOffset12 w)
    | false, true => .armStrb c (decodeIndexing w) rn rd (decodeOffset12 w)
  else if matchesRow w 0x0FB00FF0#32 0x01000090#32 then
    if w.getLsbD 22 then .armSwpb c rn rd rm else .armSwp c rn rd rm
  else if matchesRow w 0x0FC000F0#32 0x00000090#32 then decodeMultiply w
  else if matchesRow w 0x0F8000F0#32 0x00800090#32 then decodeMultiply w
  else if matchesRow w 0x0E000090#32 0x00000090#32 then decodeHalfSigned w
  else if matchesRow w 0x0D900000#32 0x01000000#32 then decodePsrTransfer w
  else if matchesRow w 0x0C000000#32 0x00000000#32 then decodeDataProcessing w
  else if matchesRow w 0x0E000000#32 0x0C000000#32 then .armNoClassCoprocTransfer c
  else .armNoClassCoprocOperation c

/-- The Thumb ALU operations, format 4 (R245): op = h[9:6]. -/
def decodeThumbAlu (h : BitVec 16) : Instr :=
  let rs : LoReg := h.extractLsb' 3 3
  let rd : LoReg := h.extractLsb' 0 3
  match (h.extractLsb' 6 4).toNat with
  | 0 => .thumbAnd rs rd
  | 1 => .thumbEor rs rd
  | 2 => .thumbLslReg rs rd
  | 3 => .thumbLsrReg rs rd
  | 4 => .thumbAsrReg rs rd
  | 5 => .thumbAdc rs rd
  | 6 => .thumbSbc rs rd
  | 7 => .thumbRor rs rd
  | 8 => .thumbTst rs rd
  | 9 => .thumbNeg rs rd
  | 10 => .thumbCmp rs rd
  | 11 => .thumbCmn rs rd
  | 12 => .thumbOrr rs rd
  | 13 => .thumbMul rs rd
  | 14 => .thumbBic rs rd
  | _ => .thumbMvn rs rd

/-- `DecodeThumb(h)`: the classes of R240 in their order, the first that matches; R241 for the words of no class. -/
def decodeThumb (h : BitVec 16) : Instr :=
  let lo0 : LoReg := h.extractLsb' 0 3
  let lo3 : LoReg := h.extractLsb' 3 3
  let lo6 : LoReg := h.extractLsb' 6 3
  let lo8 : LoReg := h.extractLsb' 8 3
  let imm8 : BitVec 8 := h.extractLsb' 0 8
  let imm5 : BitVec 5 := h.extractLsb' 6 5
  let off11 : BitVec 11 := h.extractLsb' 0 11
  if matchesRow h 0xFF00#16 0xDF00#16 then .thumbSwi imm8
  else if matchesRow h 0xF800#16 0xE000#16 then .thumbB off11
  else if matchesRow h 0xF000#16 0xD000#16 then .thumbBcond (Cond.ofBits (h.extractLsb' 8 4)) imm8
  else if matchesRow h 0xF000#16 0xC000#16 then
    if h.getLsbD 11 then .thumbLdmia lo8 imm8 else .thumbStmia lo8 imm8
  else if matchesRow h 0xF000#16 0xF000#16 then
    if h.getLsbD 11 then .thumbBlSecond off11 else .thumbBlFirst off11
  else if matchesRow h 0xFF00#16 0xB000#16 then
    if h.getLsbD 7 then .thumbSubSp (h.extractLsb' 0 7) else .thumbAddSp (h.extractLsb' 0 7)
  else if matchesRow h 0xF600#16 0xB400#16 then
    if h.getLsbD 11 then .thumbPop (h.getLsbD 8) imm8 else .thumbPush (h.getLsbD 8) imm8
  else if matchesRow h 0xF000#16 0x8000#16 then
    if h.getLsbD 11 then .thumbLdrhImm imm5 lo3 lo0 else .thumbStrhImm imm5 lo3 lo0
  else if matchesRow h 0xF000#16 0x9000#16 then
    if h.getLsbD 11 then .thumbLdrSp lo8 imm8 else .thumbStrSp lo8 imm8
  else if matchesRow h 0xF000#16 0xA000#16 then
    if h.getLsbD 11 then .thumbAddRdSp lo8 imm8 else .thumbAddRdPc lo8 imm8
  else if matchesRow h 0xE000#16 0x6000#16 then
    match h.getLsbD 12, h.getLsbD 11 with
    | false, false => .thumbStrImm imm5 lo3 lo0
    | false, true => .thumbLdrImm imm5 lo3 lo0
    | true, false => .thumbStrbImm imm5 lo3 lo0
    | true, true => .thumbLdrbImm imm5 lo3 lo0
  else if matchesRow h 0xF200#16 0x5000#16 then
    match h.getLsbD 11, h.getLsbD 10 with
    | false, false => .thumbStrReg lo6 lo3 lo0
    | false, true => .thumbStrbReg lo6 lo3 lo0
    | true, false => .thumbLdrReg lo6 lo3 lo0
    | true, true => .thumbLdrbReg lo6 lo3 lo0
  else if matchesRow h 0xF200#16 0x5200#16 then
    match h.getLsbD 10, h.getLsbD 11 with
    | false, false => .thumbStrhReg lo6 lo3 lo0
    | false, true => .thumbLdrhReg lo6 lo3 lo0
    | true, false => .thumbLdsbReg lo6 lo3 lo0
    | true, true => .thumbLdshReg lo6 lo3 lo0
  else if matchesRow h 0xF800#16 0x4800#16 then .thumbLdrPc lo8 imm8
  else if matchesRow h 0xFC00#16 0x4400#16 then
    let rd : Reg := h.extractLsb' 7 1 ++ lo0
    let rs : Reg := h.extractLsb' 3 4
    match h.getLsbD 9, h.getLsbD 8 with
    | false, false => .thumbAddHi rd rs
    | false, true => .thumbCmpHi rd rs
    | true, false => .thumbMovHi rd rs
    | true, true => .thumbBx rs
  else if matchesRow h 0xFC00#16 0x4000#16 then decodeThumbAlu h
  else if matchesRow h 0xE000#16 0x2000#16 then
    match h.getLsbD 12, h.getLsbD 11 with
    | false, false => .thumbMovImm lo8 imm8
    | false, true => .thumbCmpImm lo8 imm8
    | true, false => .thumbAddImm8 lo8 imm8
    | true, true => .thumbSubImm8 lo8 imm8
  else if matchesRow h 0xF800#16 0x1800#16 then
    match h.getLsbD 10, h.getLsbD 9 with
    | false, false => .thumbAddReg lo6 lo3 lo0
    | false, true => .thumbSubReg lo6 lo3 lo0
    | true, false => .thumbAddImm3 lo6 lo3 lo0
    | true, true => .thumbSubImm3 lo6 lo3 lo0
  else if matchesRow h 0xE000#16 0x0000#16 then
    match h.getLsbD 12, h.getLsbD 11 with
    | false, false => .thumbLslImm imm5 lo3 lo0
    | false, true => .thumbLsrImm imm5 lo3 lo0
    | true, _ => .thumbAsrImm imm5 lo3 lo0
  else if matchesRow h 0xF800#16 0xE800#16 then .thumbNoClassE8
  else .thumbNoClassB0

/-- The instruction an opcode of the latch holds: 32 bits in ARM state, the low 16 in Thumb state (R220, R34). -/
def decodeOpcode (thumb : Bool) (op : BitVec 32) : Instr :=
  if thumb then decodeThumb (op.setWidth 16) else decodeArm op

/-- Why bytes decode to no instruction: they end before the word does. -/
inductive DecodeReject where
  | truncatedArmWord
  | truncatedThumbWord
  deriving DecidableEq, Repr

/-- The first instruction of a byte sequence, little-endian, and the bytes after it (R70, R220). -/
def decode (thumb : Bool) (bytes : List Byte) : Except DecodeReject (Instr × List Byte) :=
  if thumb then
    match bytes with
    | b0 :: b1 :: rest => .ok (decodeThumb (b1 ++ b0), rest)
    | _ => .error .truncatedThumbWord
  else
    match bytes with
    | b0 :: b1 :: b2 :: b3 :: rest => .ok (decodeArm (b3 ++ b2 ++ b1 ++ b0), rest)
    | _ => .error .truncatedArmWord

/-! ## The encoder -/

/-- A field placed with its low bit at bit `lo` of an ARM word. -/
def put {n : Nat} (lo : Nat) (v : BitVec n) : BitVec 32 :=
  v.setWidth 32 <<< lo

/-- A field placed with its low bit at bit `lo` of a Thumb word. -/
def put16 {n : Nat} (lo : Nat) (v : BitVec n) : BitVec 16 :=
  v.setWidth 16 <<< lo

/-- One bit placed in an ARM word. -/
def putBit (lo : Nat) (b : Bool) : BitVec 32 :=
  put lo (BitVec.ofBool b)

/-- The bits I and 11..0 of operand 2 (R236, R237). -/
def encodeOperand2 : Operand2 → BitVec 32
  | .imm rot imm8 => putBit 25 true ||| put 8 rot ||| put 0 imm8
  | .shiftImm rm ty amount => put 7 amount ||| put 5 ty.toBits ||| put 0 rm
  | .shiftReg rm ty rs => put 8 rs ||| put 5 ty.toBits ||| putBit 4 true ||| put 0 rm

/-- The bits I and 11..0 of a single data transfer's offset (R230). -/
def encodeOffset12 : Offset12 → BitVec 32
  | .imm imm12 => put 0 imm12
  | .reg rm ty amount => putBit 25 true ||| put 7 amount ||| put 5 ty.toBits ||| put 0 rm

/-- The bits I = w[22], 11..8 and 3..0 of a halfword transfer's offset (R233); w[11:8] = 0 in the register form. -/
def encodeOffset8 : Offset8 → BitVec 32
  | .imm imm8 => putBit 22 true ||| put 8 (imm8.extractLsb' 4 4) ||| put 0 (imm8.extractLsb' 0 4)
  | .reg rm => put 0 rm

/-- The bits P, U, W (R230, R233). -/
def encodeIndexing (ix : Indexing) : BitVec 32 :=
  putBit 24 ix.pre ||| putBit 23 ix.up ||| putBit 21 ix.wback

/-- The bits P, U, S, W (R226). -/
def encodeBlockMode (m : BlockMode) : BitVec 32 :=
  putBit 24 m.pre ||| putBit 23 m.up ||| putBit 22 m.psr ||| putBit 21 m.wback

/-- A data-processing word (R235). -/
def encodeDataProcessing (c : Cond) (opcode : BitVec 4) (s : Bool) (rn rd : Reg) (op2 : Operand2) : BitVec 32 :=
  put 28 c.toBits ||| put 21 opcode ||| putBit 20 s ||| put 16 rn ||| put 12 rd ||| encodeOperand2 op2

/-- A multiply word (R232): the bits above 20, then S and the four register fields. -/
def encodeMultiply (c : Cond) (top : BitVec 32) (s : Bool) (r19 r15 rs rm : Reg) : BitVec 32 :=
  put 28 c.toBits ||| top ||| putBit 20 s ||| put 16 r19 ||| put 12 r15 ||| put 8 rs ||| 0x00000090#32 ||| put 0 rm

/-- A single data transfer word (R230): `kind` holds the bits B and L. -/
def encodeTransfer (c : Cond) (kind : BitVec 32) (ix : Indexing) (rn rd : Reg) (off : Offset12) : BitVec 32 :=
  put 28 c.toBits ||| 0x04000000#32 ||| kind ||| encodeIndexing ix ||| put 16 rn ||| put 12 rd ||| encodeOffset12 off

/-- A halfword/signed transfer word (R233): `kind` holds the bits L, S and H. -/
def encodeHalfSigned (c : Cond) (kind : BitVec 32) (ix : Indexing) (rn rd : Reg) (off : Offset8) : BitVec 32 :=
  put 28 c.toBits ||| 0x00000090#32 ||| kind ||| encodeIndexing ix ||| put 16 rn ||| put 12 rd ||| encodeOffset8 off

/-- A block transfer word (R226): `kind` holds the bit L. -/
def encodeBlock (c : Cond) (kind : BitVec 32) (m : BlockMode) (rn : Reg) (list : BitVec 16) : BitVec 32 :=
  put 28 c.toBits ||| 0x08000000#32 ||| kind ||| encodeBlockMode m ||| put 16 rn ||| put 0 list

/-- The 32-bit word of an ARM instruction; 0 for a Thumb instruction, which has none.
Bits the decoder ignores take the value the architecture recommends (log entry 25). -/
def encodeArm : Instr → BitVec 32
  | .armBx c rn => put 28 c.toBits ||| 0x012FFF10#32 ||| put 0 rn
  | .armLdm c m rn list => encodeBlock c 0x00100000#32 m rn list
  | .armStm c m rn list => encodeBlock c 0#32 m rn list
  | .armB c offset24 => put 28 c.toBits ||| 0x0A000000#32 ||| put 0 offset24
  | .armBl c offset24 => put 28 c.toBits ||| 0x0B000000#32 ||| put 0 offset24
  | .armSwi c comment24 => put 28 c.toBits ||| 0x0F000000#32 ||| put 0 comment24
  | .armUnd c => put 28 c.toBits ||| 0x06000010#32
  | .armLdr c ix rn rd off => encodeTransfer c 0x00100000#32 ix rn rd off
  | .armLdrb c ix rn rd off => encodeTransfer c 0x00500000#32 ix rn rd off
  | .armStr c ix rn rd off => encodeTransfer c 0#32 ix rn rd off
  | .armStrb c ix rn rd off => encodeTransfer c 0x00400000#32 ix rn rd off
  | .armSwp c rn rd rm => put 28 c.toBits ||| 0x01000090#32 ||| put 16 rn ||| put 12 rd ||| put 0 rm
  | .armSwpb c rn rd rm => put 28 c.toBits ||| 0x01400090#32 ||| put 16 rn ||| put 12 rd ||| put 0 rm
  | .armMul c s rd rs rm => encodeMultiply c 0#32 s rd 0#4 rs rm
  | .armMla c s rd rn rs rm => encodeMultiply c 0x00200000#32 s rd rn rs rm
  | .armUmull c s rdHi rdLo rs rm => encodeMultiply c 0x00800000#32 s rdHi rdLo rs rm
  | .armUmlal c s rdHi rdLo rs rm => encodeMultiply c 0x00A00000#32 s rdHi rdLo rs rm
  | .armSmull c s rdHi rdLo rs rm => encodeMultiply c 0x00C00000#32 s rdHi rdLo rs rm
  | .armSmlal c s rdHi rdLo rs rm => encodeMultiply c 0x00E00000#32 s rdHi rdLo rs rm
  | .armStrh c ix rn rd off => encodeHalfSigned c 0x00000020#32 ix rn rd off
  | .armLdrh c ix rn rd off => encodeHalfSigned c 0x00100020#32 ix rn rd off
  | .armLdrsb c ix rn rd off => encodeHalfSigned c 0x00100040#32 ix rn rd off
  | .armLdrsh c ix rn rd off => encodeHalfSigned c 0x00100060#32 ix rn rd off
  | .armLdrdPosition c ix rn rd off => encodeHalfSigned c 0x00000040#32 ix rn rd off
  | .armStrdPosition c ix rn rd off => encodeHalfSigned c 0x00000060#32 ix rn rd off
  | .armReservedSh00 c => put 28 c.toBits ||| 0x00400090#32
  | .armMrs c p rd => put 28 c.toBits ||| 0x010F0000#32 ||| putBit 22 p ||| put 12 rd
  | .armReservedPsr c => put 28 c.toBits ||| 0x03000000#32
  | .armMsrReg c p fm rm => put 28 c.toBits ||| 0x0120F000#32 ||| putBit 22 p ||| put 16 fm ||| put 0 rm
  | .armMsrImm c p fm rot imm8 => put 28 c.toBits ||| 0x0320F000#32 ||| putBit 22 p ||| put 16 fm ||| put 8 rot ||| put 0 imm8
  | .armAnd c s rn rd op2 => encodeDataProcessing c 0x0#4 s rn rd op2
  | .armEor c s rn rd op2 => encodeDataProcessing c 0x1#4 s rn rd op2
  | .armSub c s rn rd op2 => encodeDataProcessing c 0x2#4 s rn rd op2
  | .armRsb c s rn rd op2 => encodeDataProcessing c 0x3#4 s rn rd op2
  | .armAdd c s rn rd op2 => encodeDataProcessing c 0x4#4 s rn rd op2
  | .armAdc c s rn rd op2 => encodeDataProcessing c 0x5#4 s rn rd op2
  | .armSbc c s rn rd op2 => encodeDataProcessing c 0x6#4 s rn rd op2
  | .armRsc c s rn rd op2 => encodeDataProcessing c 0x7#4 s rn rd op2
  | .armTst c rn op2 => encodeDataProcessing c 0x8#4 true rn 0#4 op2
  | .armTeq c rn op2 => encodeDataProcessing c 0x9#4 true rn 0#4 op2
  | .armCmp c rn op2 => encodeDataProcessing c 0xA#4 true rn 0#4 op2
  | .armCmn c rn op2 => encodeDataProcessing c 0xB#4 true rn 0#4 op2
  | .armOrr c s rn rd op2 => encodeDataProcessing c 0xC#4 s rn rd op2
  | .armMov c s rd op2 => encodeDataProcessing c 0xD#4 s 0#4 rd op2
  | .armBic c s rn rd op2 => encodeDataProcessing c 0xE#4 s rn rd op2
  | .armMvn c s rd op2 => encodeDataProcessing c 0xF#4 s 0#4 rd op2
  | .armNoClassCoprocTransfer c => put 28 c.toBits ||| 0x0C000000#32
  | .armNoClassCoprocOperation c => put 28 c.toBits ||| 0x0E000000#32
  | _ => 0#32

/-- A Thumb word of two low registers and a 10-bit top part (formats 2 and 4: R243, R245). -/
def encodeThumb2 (top : BitVec 16) (r3 r0 : LoReg) : BitVec 16 :=
  top ||| put16 3 r3 ||| put16 0 r0

/-- A Thumb word of three low registers or of imm3 and two registers (R243, R248, R249). -/
def encodeThumb3 (top : BitVec 16) (r6 r3 r0 : LoReg) : BitVec 16 :=
  top ||| put16 6 r6 ||| put16 3 r3 ||| put16 0 r0

/-- A Thumb word of a 5-bit immediate and two low registers (R242, R250, R251). -/
def encodeThumbImm5 (top : BitVec 16) (imm5 : BitVec 5) (r3 r0 : LoReg) : BitVec 16 :=
  top ||| put16 6 imm5 ||| put16 3 r3 ||| put16 0 r0

/-- A Thumb word of a low register at bits 10..8 and eight low bits (R244, R247, R252, R253, R256). -/
def encodeThumbImm8 (top : BitVec 16) (r8 : LoReg) (low : BitVec 8) : BitVec 16 :=
  top ||| put16 8 r8 ||| put16 0 low

/-- A hi-register word (R246): H1 = h[7] is the top bit of Rd, H2 = h[6] the top bit of Rs. -/
def encodeThumbHi (top : BitVec 16) (rd rs : Reg) : BitVec 16 :=
  top ||| put16 7 (rd.extractLsb' 3 1) ||| put16 3 rs ||| put16 0 (rd.extractLsb' 0 3)

/-- The 16-bit word of a Thumb instruction; 0 for an ARM instruction, which has none. -/
def encodeThumb : Instr → BitVec 16
  | .thumbSwi value8 => 0xDF00#16 ||| put16 0 value8
  | .thumbB off11 => 0xE000#16 ||| put16 0 off11
  | .thumbBcond c soff8 => 0xD000#16 ||| put16 8 c.toBits ||| put16 0 soff8
  | .thumbStmia rb list => encodeThumbImm8 0xC000#16 rb list
  | .thumbLdmia rb list => encodeThumbImm8 0xC800#16 rb list
  | .thumbBlFirst off11 => 0xF000#16 ||| put16 0 off11
  | .thumbBlSecond off11 => 0xF800#16 ||| put16 0 off11
  | .thumbAddSp imm7 => 0xB000#16 ||| put16 0 imm7
  | .thumbSubSp imm7 => 0xB080#16 ||| put16 0 imm7
  | .thumbPush lr list => 0xB400#16 ||| put16 8 (BitVec.ofBool lr) ||| put16 0 list
  | .thumbPop pc list => 0xBC00#16 ||| put16 8 (BitVec.ofBool pc) ||| put16 0 list
  | .thumbStrhImm imm5 rb rd => encodeThumbImm5 0x8000#16 imm5 rb rd
  | .thumbLdrhImm imm5 rb rd => encodeThumbImm5 0x8800#16 imm5 rb rd
  | .thumbStrSp rd imm8 => encodeThumbImm8 0x9000#16 rd imm8
  | .thumbLdrSp rd imm8 => encodeThumbImm8 0x9800#16 rd imm8
  | .thumbAddRdPc rd imm8 => encodeThumbImm8 0xA000#16 rd imm8
  | .thumbAddRdSp rd imm8 => encodeThumbImm8 0xA800#16 rd imm8
  | .thumbStrImm imm5 rb rd => encodeThumbImm5 0x6000#16 imm5 rb rd
  | .thumbLdrImm imm5 rb rd => encodeThumbImm5 0x6800#16 imm5 rb rd
  | .thumbStrbImm imm5 rb rd => encodeThumbImm5 0x7000#16 imm5 rb rd
  | .thumbLdrbImm imm5 rb rd => encodeThumbImm5 0x7800#16 imm5 rb rd
  | .thumbStrReg ro rb rd => encodeThumb3 0x5000#16 ro rb rd
  | .thumbStrbReg ro rb rd => encodeThumb3 0x5400#16 ro rb rd
  | .thumbLdrReg ro rb rd => encodeThumb3 0x5800#16 ro rb rd
  | .thumbLdrbReg ro rb rd => encodeThumb3 0x5C00#16 ro rb rd
  | .thumbStrhReg ro rb rd => encodeThumb3 0x5200#16 ro rb rd
  | .thumbLdsbReg ro rb rd => encodeThumb3 0x5600#16 ro rb rd
  | .thumbLdrhReg ro rb rd => encodeThumb3 0x5A00#16 ro rb rd
  | .thumbLdshReg ro rb rd => encodeThumb3 0x5E00#16 ro rb rd
  | .thumbLdrPc rd imm8 => encodeThumbImm8 0x4800#16 rd imm8
  | .thumbAddHi rd rs => encodeThumbHi 0x4400#16 rd rs
  | .thumbCmpHi rd rs => encodeThumbHi 0x4500#16 rd rs
  | .thumbMovHi rd rs => encodeThumbHi 0x4600#16 rd rs
  | .thumbBx rs => 0x4700#16 ||| put16 3 rs
  | .thumbAnd rs rd => encodeThumb2 0x4000#16 rs rd
  | .thumbEor rs rd => encodeThumb2 0x4040#16 rs rd
  | .thumbLslReg rs rd => encodeThumb2 0x4080#16 rs rd
  | .thumbLsrReg rs rd => encodeThumb2 0x40C0#16 rs rd
  | .thumbAsrReg rs rd => encodeThumb2 0x4100#16 rs rd
  | .thumbAdc rs rd => encodeThumb2 0x4140#16 rs rd
  | .thumbSbc rs rd => encodeThumb2 0x4180#16 rs rd
  | .thumbRor rs rd => encodeThumb2 0x41C0#16 rs rd
  | .thumbTst rs rd => encodeThumb2 0x4200#16 rs rd
  | .thumbNeg rs rd => encodeThumb2 0x4240#16 rs rd
  | .thumbCmp rs rd => encodeThumb2 0x4280#16 rs rd
  | .thumbCmn rs rd => encodeThumb2 0x42C0#16 rs rd
  | .thumbOrr rs rd => encodeThumb2 0x4300#16 rs rd
  | .thumbMul rs rd => encodeThumb2 0x4340#16 rs rd
  | .thumbBic rs rd => encodeThumb2 0x4380#16 rs rd
  | .thumbMvn rs rd => encodeThumb2 0x43C0#16 rs rd
  | .thumbMovImm rd imm8 => encodeThumbImm8 0x2000#16 rd imm8
  | .thumbCmpImm rd imm8 => encodeThumbImm8 0x2800#16 rd imm8
  | .thumbAddImm8 rd imm8 => encodeThumbImm8 0x3000#16 rd imm8
  | .thumbSubImm8 rd imm8 => encodeThumbImm8 0x3800#16 rd imm8
  | .thumbAddReg rn rs rd => encodeThumb3 0x1800#16 rn rs rd
  | .thumbSubReg rn rs rd => encodeThumb3 0x1A00#16 rn rs rd
  | .thumbAddImm3 imm3 rs rd => encodeThumb3 0x1C00#16 imm3 rs rd
  | .thumbSubImm3 imm3 rs rd => encodeThumb3 0x1E00#16 imm3 rs rd
  | .thumbLslImm imm5 rs rd => encodeThumbImm5 0x0000#16 imm5 rs rd
  | .thumbLsrImm imm5 rs rd => encodeThumbImm5 0x0800#16 imm5 rs rd
  | .thumbAsrImm imm5 rs rd => encodeThumbImm5 0x1000#16 imm5 rs rd
  | .thumbNoClassE8 => 0xE800#16
  | .thumbNoClassB0 => 0xB100#16
  | _ => 0#16

/-- The bytes of an instruction in memory order (R70, R220). -/
def encode (i : Instr) : List Byte :=
  if i.isThumb then
    let h := encodeThumb i
    [Machine.lane h 0, Machine.lane h 1]
  else
    let w := encodeArm i
    [Machine.lane w 0, Machine.lane w 1, Machine.lane w 2, Machine.lane w 3]

/-- The instruction of an opcode-table word: a 16-bit row is a Thumb instruction, a 32-bit row an ARM one (R220). -/
def decodeTableWord (nbits w : Nat) : Option Instr :=
  let bytes : List Byte := (List.range (nbits / 8)).map fun k => BitVec.ofNat 8 (w >>> (8 * k))
  let read (thumb : Bool) : Option Instr :=
    match decode thumb bytes with
    | .ok (i, []) => some i
    | _ => none
  if nbits = 16 then read true
  else if nbits = 32 then read false
  else none

end Sys2Proof
end

