-- ==== Sys2Proof/Config.lean ====
section
/-! DEFINITION. The parameters of the machine (spec `00_scope.md` R7, `93_implementation_defined.md` Part 4).
First-order parameters are the record `Params`, which the state carries and no step changes (log entry 1).
The parameters that are functions are opaque constants: OPEN_BUS and ROM_OOB here (log entries 5 and 6), and beside the
types they range over, `Config.dmaCost` in `Machine/Dma.lean` and `Config.cyclesAbove` in `Machine/Run.lean`, each taken
only where `Params` does not choose the default (log entries 13 and 14). -/

namespace Sys2Proof

/-- `OPEN_BUS(addr, n)` (R7, R84): the value an `n`-byte read of an unmapped address returns.
FREE VALUE, log entry 5: the source gives no value and no proof can see one. -/
opaque Config.openBus : Word → Nat → Word

/-- `ROM_OOB(addr, n)` (R7, R80): the bytes an `n`-byte read of the ROM window returns beyond `ROM_SIZE`.
FREE VALUE, log entry 6: the source gives no value and no proof can see one. -/
opaque Config.romOob : Word → Nat → Word

/-- One byte lane of the parameter `IoOther` (R214): an I/O offset with a readable and a writable mask.
`gate` names the offset and bit of a sound master-enable bit that must be 1 for a write to be accepted (log entry 23). -/
structure IoLaneSpec where
  offset : Nat
  readMask : Byte
  writeMask : Byte
  gate : Option (Nat × Nat)
  deriving DecidableEq, Repr

/-- The cost of an access in one region, the same for sequential and non-sequential (R113): 8- and 16-bit, 32-bit. -/
structure RegionBase where
  c16 : Nat
  c32 : Nat
  deriving DecidableEq, Repr

/-- The parameter `REGION_BASE_COST` (R7, R113). -/
structure RegionBaseCosts where
  bios : RegionBase
  ewram : RegionBase
  iwram : RegionBase
  io : RegionBase
  pal : RegionBase
  vram : RegionBase
  oam : RegionBase
  deriving DecidableEq, Repr

/-- The values of R113 (GK17; log entry 24). -/
def RegionBaseCosts.default : RegionBaseCosts :=
  ⟨⟨1, 1⟩, ⟨3, 6⟩, ⟨1, 1⟩, ⟨1, 1⟩, ⟨1, 2⟩, ⟨1, 2⟩, ⟨1, 1⟩⟩

/-- The parameter `Cycles` (R7, `70_reset_and_hazards.md` R610; log entry 13). -/
inductive CyclesParam where
  /-- The default: the sum of the contributions of R611. -/
  | default
  /-- Any other: the default and `Config.cyclesAbove` more, so pointwise at least the default (R610). -/
  | other
  deriving DecidableEq, Repr

/-- The parameter `DMA_COST` (R7, `50_dma.md` R500; log entry 14). -/
inductive DmaCostParam where
  /-- A fixed part and a part per unit. -/
  | perUnit (fixed unit : Nat)
  /-- Any other: the function `Config.dmaCost`. -/
  | other
  deriving DecidableEq, Repr

/-- The parameter `EEPROM_WINDOW` (R7, `21_backup.md` R158; log entry 27). Every predicate on the ROM window's addresses
is a list of ranges, since there are finitely many of them. -/
inductive EepromWindowParam where
  /-- The default: the predicate of R158, which depends on ROM_SIZE. -/
  | bySize
  /-- The addresses of the ROM window from `p.1` to `p.2`, for some `p` of the list. -/
  | ranges (l : List (Word × Word))
  deriving DecidableEq, Repr

/-- The first-order parameters of R7. -/
structure Params where
  /-- `BIOS_IMAGE`, 16384 bytes (R7, R592), a sparse store over offsets; an unlisted byte is 0 (log entry 8). -/
  bios : Memory
  /-- `ROM_IMAGE` (R7, R592), a sparse store over indexes; an unlisted byte below `romSize` is 0 (log entry 8). -/
  rom : Memory
  /-- `ROM_SIZE` in bytes, at most 33554432 (R7). -/
  romSize : Nat
  /-- `FLASH_ID.manufacturer` (R7, R141). -/
  flashManufacturer : Byte
  /-- `FLASH_ID.device` (R7, R141). -/
  flashDevice : Byte
  /-- `REGION_BASE_COST` (R7, R113). -/
  regionBase : RegionBaseCosts
  /-- `SWP_IMPLEMENTED` (R7, R345). -/
  swpImplemented : Bool
  /-- `IRQ_LR_BIAS(0)` (R7, R534). -/
  irqLrBiasArm : Word
  /-- `IRQ_LR_BIAS(1)` (R7, R534). -/
  irqLrBiasThumb : Word
  /-- `Cycles` (R7, R610). -/
  cycles : CyclesParam
  /-- `DMA_COST` (R7, R614). -/
  dmaCost : DmaCostParam
  /-- `EEPROM_WINDOW` (R7, R158). -/
  eepromWindow : EepromWindowParam
  /-- `IoOther` (R7, R214). -/
  ioOther : List IoLaneSpec
  /-- `RESET_REGS`, the general registers (R7, R60); its r15 is not used. -/
  resetRegs : Regs
  /-- `RESET_REGS`, the SPSRs (R7, R60). -/
  resetSpsrs : Spsrs
  deriving DecidableEq, Repr

/-- Every parameter at the default that R7 chooses; the images are empty (log entries 3, 7, 8, 9, 10, 13, 14, 23, 24). -/
def Params.default : Params where
  bios := []
  rom := []
  romSize := 0
  flashManufacturer := 0xC2#8
  flashDevice := 0x09#8
  regionBase := RegionBaseCosts.default
  swpImplemented := false
  irqLrBiasArm := 4#32
  irqLrBiasThumb := 4#32
  cycles := .default
  dmaCost := .perUnit 0 0
  eepromWindow := .bySize
  ioOther := []
  resetRegs := Regs.zero
  resetSpsrs := Spsrs.zero

end Sys2Proof
end

