-- ==== Sys2Proof/Machine/Memory.lean ====
section
/-! DEFINITION. The sparse byte store (spec `10_state.md` R40, `20_memory.md` R70). Canonical form: indexes strictly
rising, no listed byte equal to what an unlisted index reads as. -/

namespace Sys2Proof

/-- What an unlisted index reads as (R60: memories are zero at reset; log entry 2). -/
def unlisted : Byte := 0#8

/-- The canonical form. -/
abbrev Memory.wf (m : Memory) : Prop :=
  m.Pairwise (fun p q => p.1 < q.1) ∧ ∀ c ∈ m, c.2 ≠ unlisted

/-- The byte at an index. -/
def Memory.read (m : Memory) (i : Nat) : Byte :=
  match m with
  | [] => unlisted
  | (k, v) :: rest => if k = i then v else Memory.read rest i

/-- The store with one byte replaced, in canonical form. -/
def Memory.write (m : Memory) (i : Nat) (v : Byte) : Memory :=
  match m with
  | [] => if v = unlisted then [] else [(i, v)]
  | (k, u) :: rest =>
    if i < k then (if v = unlisted then (k, u) :: rest else (i, v) :: (k, u) :: rest)
    else if i = k then (if v = unlisted then rest else (i, v) :: rest)
    else (k, u) :: Memory.write rest i v

/-- The store with the `n` bytes from `lo` replaced by one value (the erase operations of `21_backup.md` R147, R148). -/
def Memory.fill (m : Memory) (lo n : Nat) (v : Byte) : Memory :=
  m.filter (fun c => c.1 < lo) ++
    ((if v = unlisted then [] else (List.range' lo n).map fun i => (i, v)) ++
      m.filter (fun c => lo + n ≤ c.1))

namespace Machine

/-- The little-endian value of the `w.bytes` bytes from index `i` (R70). -/
def readBytes (m : Memory) (i : Nat) (w : Width) : Word :=
  assemble w fun k => m.read (i + k)

/-- One action per byte lane of a value, low lane first (R70, R75, R82). -/
def eachLane {σ : Type} (w : Width) (v : Word) (f : Nat → Byte → σ → σ) (s : σ) : σ :=
  match w with
  | .byte => f 0 (lane v 0) s
  | .half => f 1 (lane v 1) (f 0 (lane v 0) s)
  | .word => f 3 (lane v 3) (f 2 (lane v 2) (f 1 (lane v 1) (f 0 (lane v 0) s)))

/-- The low `w.bytes` bytes of a value stored from index `i` (R70). -/
def writeBytes (m : Memory) (i : Nat) (w : Width) (v : Word) : Memory :=
  eachLane w v (fun k b m => m.write (i + k) b) m

end Machine

end Sys2Proof
end

