-- ==== Sys2Proof/Machine/Waitstates.lean ====
section
/-! DEFINITION. The waitstate tables (spec `20_memory.md` R110-R114, `10_state.md` R42).
The default cycle tally does not use them (`70_reset_and_hazards.md` R612). -/

namespace Sys2Proof.Machine

/-- The four entries of one region: non-sequential and sequential, 16-bit (and 8-bit) and 32-bit (R110). -/
structure RegionCost where
  n16 : Nat
  s16 : Nat
  n32 : Nat
  s32 : Nat
  deriving DecidableEq, Repr

/-- The access-time tables, two pairs for every region (R110, `10_state.md` R42). -/
structure WaitTables where
  bios : RegionCost
  ewram : RegionCost
  iwram : RegionCost
  io : RegionCost
  pal : RegionCost
  vram : RegionCost
  oam : RegionCost
  rom0 : RegionCost
  rom1 : RegionCost
  rom2 : RegionCost
  backup : RegionCost
  deriving DecidableEq, Repr

/-- The first-access penalties {4, 3, 2, 8} (R112). -/
def firstPenalty (f : BitVec 2) : Nat :=
  match f.toNat with
  | 0 => 4 | 1 => 3 | 2 => 2 | _ => 8

/-- A region outside the cartridge: both tables from `REGION_BASE_COST` (R111, R113). -/
def RegionCost.ofBase (r : RegionBase) : RegionCost :=
  ⟨r.c16, r.c16, r.c32, r.c32⟩

/-- A cartridge region: the 32-bit costs derive from the 16-bit ones (R111, R112). -/
def RegionCost.ofPenalties (first second : Nat) : RegionCost :=
  let n16 := 1 + first
  let s16 := 1 + second
  ⟨n16, s16, n16 + s16, 2 * s16⟩

/-- The tables that a WAITCNT value gives (R112, R113, R114). The 32-bit pair of the backup window has no stated value: it is
derived as that of the other cartridge windows (log entry 33). -/
def WaitTables.compute (base : RegionBaseCosts) (waitcnt : BitVec 16) : WaitTables where
  bios := RegionCost.ofBase base.bios
  ewram := RegionCost.ofBase base.ewram
  iwram := RegionCost.ofBase base.iwram
  io := RegionCost.ofBase base.io
  pal := RegionCost.ofBase base.pal
  vram := RegionCost.ofBase base.vram
  oam := RegionCost.ofBase base.oam
  rom0 := RegionCost.ofPenalties (firstPenalty (waitcnt.extractLsb' 2 2)) (if waitcnt.getLsbD 4 then 1 else 2)
  rom1 := RegionCost.ofPenalties (firstPenalty (waitcnt.extractLsb' 5 2)) (if waitcnt.getLsbD 7 then 1 else 4)
  rom2 := RegionCost.ofPenalties (firstPenalty (waitcnt.extractLsb' 8 2)) (if waitcnt.getLsbD 10 then 1 else 8)
  backup := RegionCost.ofPenalties (firstPenalty (waitcnt.extractLsb' 0 2)) (firstPenalty (waitcnt.extractLsb' 0 2))

end Sys2Proof.Machine
end

