-- ==== Sys2Proof/Machine/State.lean ====
section
/-! DEFINITION. The state of GBA-CORE as plain data (spec `10_state.md` R20-R49) and its reset values (R60). -/

namespace Sys2Proof.Machine

/-- Why the machine stops for good: the reasons of the fatal latch (`00_scope.md` R13, `10_state.md` R37). -/
inductive Fault where
  /-- A word of no class (`30_encoding.md` R238, R241); raised by the next step once the latch holds it. SAFE (log entry 16). -/
  | decodeError (word : Word) (thumb : Bool)
  /-- A reserved sub-encoding, a missing SPSR or an illegal mode value (`60_exceptions.md` R553). SAFE (log entry 16). -/
  | executeError (word : Word) (thumb : Bool)
  /-- An instruction D0 decodes and does not execute (`42_arm_load_store.md` R335, R345, R346). SAFE (log entry 16). -/
  | unimplemented (word : Word)
  deriving DecidableEq, Repr

/-- Why the model gives no next state. -/
inductive Refusal where
  /-- An instruction with no meaning in this model: raised by an arm of `exec` alone. SAFE. -/
  | notModelled (mnemonic : String)
  /-- An enable edge on a DMA channel in the middle of its own run, which D0 leaves open (`50_dma.md` R506); raised by the
  store or event that produces the edge. SAFE (log entry 15). -/
  | dmaReentry (channel : Fin 4)
  deriving DecidableEq, Repr

/-- `run_state` (R35). -/
inductive RunState where
  | run
  | halt
  | stop
  deriving DecidableEq, Repr

/-- `flash_mode` (R45). -/
inductive FlashMode where
  | idle
  | erase
  | write
  | bankSwitch
  deriving DecidableEq, Repr

/-- Where `Line()` stands (`60_exceptions.md` R575): before step 1, in `RunCpu(1006)`, in `RunCpu(226)` (log entry 12). -/
inductive SeqPhase where
  | lineStart
  | hDraw
  | hBlank
  deriving DecidableEq, Repr

/-- Four like things: the DMA channels, the timers. -/
structure Four (α : Type) where
  c0 : α
  c1 : α
  c2 : α
  c3 : α
  deriving DecidableEq, Repr

/-- One of the four. -/
def Four.get {α : Type} (f : Four α) (i : Fin 4) : α :=
  match i with
  | 0 => f.c0 | 1 => f.c1 | 2 => f.c2 | 3 => f.c3

/-- One of the four replaced. -/
def Four.set {α : Type} (f : Four α) (i : Fin 4) (v : α) : Four α :=
  match i with
  | 0 => { f with c0 := v } | 1 => { f with c1 := v } | 2 => { f with c2 := v } | 3 => { f with c3 := v }

/-- One DMA channel (R43). -/
structure DmaChannel where
  sad : Word
  dad : Word
  cntL : BitVec 16
  cntH : BitVec 16
  src : Word
  dst : Word
  remaining : Nat
  deriving DecidableEq, Repr

/-- One timer (R44). -/
structure Timer where
  reload : BitVec 16
  counter : Nat
  control : Byte
  acc : Nat
  deriving DecidableEq, Repr

/-- The typed registers of the I/O file (`22_io_registers.md` R174), the FIFO levels (R47) and the sequencer's line (R48). -/
structure Io where
  dispcnt : BitVec 16
  dispstat : BitVec 16
  vcount : Nat
  soundcntH : BitVec 16
  fifoA : Nat
  fifoB : Nat
  dma : Four DmaChannel
  timer : Four Timer
  keyinput : BitVec 16
  keycnt : BitVec 16
  ie : BitVec 16
  irf : BitVec 16
  ime : Bool
  waitcnt : BitVec 16
  postflg : Bool
  /-- The lanes of the parameter `IoOther` (R214), by offset. -/
  other : Memory
  deriving DecidableEq, Repr

/-- The Flash device (R45). -/
structure Flash where
  store : Memory
  mode : FlashMode
  idMode : Bool
  /-- `flash_bank`: false is 0, true is 0x10000. -/
  bank : Bool
  used : Bool
  guard : Fin 3
  deriving DecidableEq, Repr

/-- The EEPROM device (R45). Bit `j` of `buf` is `ee_buf[j]`. -/
structure Eeprom where
  store : Memory
  buf : BitVec 256
  idx : Nat
  addr : BitVec 13
  readAddr : BitVec 13
  readIdx : Nat
  used : Bool
  addrBits : Option Nat
  reqLen : Option Nat
  deriving DecidableEq, Repr

/-- Everything behind the bus: parameters, memories, devices, run state. -/
structure Bus where
  params : Params
  /-- EWRAM, IWRAM, PAL, VRAM, OAM and SRAM, keyed by canonical address (R40, `20_memory.md` R71). -/
  mem : Memory
  biosBus : Word
  io : Io
  wait : WaitTables
  flash : Flash
  eeprom : Eeprom
  run : RunState
  /-- `DMA_COST` charged since the action began (`70_reset_and_hazards.md` R614; log entries 14, 19). -/
  dmaCycles : Nat
  /-- Set by an access whose effect D0 leaves open (log entries 15, 19). -/
  refusal : Option Refusal
  deriving DecidableEq, Repr

/-- The processor (R21-R32). -/
structure Cpu where
  regs : Regs
  cpsr : Word
  spsr : Spsrs
  latchValid : Bool
  latchOp : Word
  /-- The opcode being executed: the local `cur` of R34 (log entry 19). -/
  cur : Word
  deriving DecidableEq, Repr

/-- The host's pending inputs (log entry 11). -/
structure Inputs where
  /-- Keypad values, one taken at each frame boundary (R203, R579). -/
  keys : List (BitVec 16)
  /-- Levels of `FIQ_LINE`, one taken at each sample; false when none is listed (R547). -/
  fiq : List Bool
  /-- Levels of the reset input, one taken at each step; false when none is listed (R591). -/
  reset : List Bool
  deriving DecidableEq, Repr

/-- The complete state (R20). -/
structure State where
  cpu : Cpu
  bus : Bus
  fatal : Option Fault
  /-- The tally of the current instruction (R34, `70_reset_and_hazards.md` R610). -/
  cycles : Nat
  cycleCounter : Nat
  budgetCarry : Nat
  seq : SeqPhase
  /-- The local `t` of `RunCpu` (`60_exceptions.md` R576). -/
  budgetPos : Nat
  inputs : Inputs
  deriving DecidableEq, Repr

/-- A DMA channel after reset (R60). -/
def DmaChannel.reset : DmaChannel := ⟨0, 0, 0, 0, 0, 0, 0⟩

/-- A timer after reset (R60). -/
def Timer.reset : Timer := ⟨0, 0, 0, 0⟩

/-- The I/O registers after reset (R60). -/
def Io.reset : Io where
  dispcnt := 0
  dispstat := 0
  vcount := 0
  soundcntH := 0
  fifoA := 0
  fifoB := 0
  dma := ⟨.reset, .reset, .reset, .reset⟩
  timer := ⟨.reset, .reset, .reset, .reset⟩
  keyinput := 0x03FF#16
  keycnt := 0
  ie := 0
  irf := 0
  ime := false
  waitcnt := 0
  postflg := false
  other := []

/-- `Reset()` for given parameters (R60, `70_reset_and_hazards.md` R590); the host's queues stay the host's. -/
def State.resetWith (p : Params) (inputs : Inputs) : State where
  cpu :=
    { regs := { p.resetRegs with r15 := 0 }
      cpsr := 0x000000D3#32
      spsr := p.resetSpsrs
      latchValid := false
      latchOp := 0
      cur := 0 }
  bus :=
    { params := p
      mem := []
      biosBus := 0
      io := Io.reset
      wait := WaitTables.compute p.regionBase 0#16
      flash := ⟨[], .idle, false, false, false, 0⟩
      eeprom := ⟨[], 0, 0, 0, 0, 0, false, none, none⟩
      run := .run
      dmaCycles := 0
      refusal := none }
  fatal := none
  cycles := 0
  cycleCounter := 0
  budgetCarry := 0
  seq := .lineStart
  budgetPos := 0
  inputs := inputs

/-- The machine right after reset, with every parameter at its default (R60, R590; log entries 1, 3, 8, 11). -/
def State.reset : State :=
  State.resetWith Params.default ⟨[], [], []⟩

end Sys2Proof.Machine
end

