-- ==== Sys2Proof/Machine/Backup.lean ====
section
/-! DEFINITION. The backup devices: SRAM, Flash, EEPROM (spec `21_backup.md`). -/

namespace Sys2Proof.Machine

/-- The canonical address of SRAM byte `a` (`20_memory.md` R82). -/
def sramKey (a : Nat) : Nat := 0x0E000000 + a

/-- `flash[flash_bank OR a]` (R145). -/
def Flash.index (f : Flash) (a : Nat) : Nat :=
  (if f.bank then 0x10000 else 0) + a

/-- `BackupReadByte(a)` (R141). -/
def backupReadByte (b : Bus) (a : Nat) : Byte :=
  if b.flash.idMode ∧ a = 0 then b.params.flashManufacturer
  else if b.flash.idMode ∧ a = 1 then b.params.flashDevice
  else if b.flash.used then b.flash.store.read (b.flash.index a)
  else b.mem.read (sramKey a)

/-- The effect of a command byte (the table of R146, R147). -/
def Flash.commandEffect (f : Flash) (v : Byte) : Flash :=
  match v.toNat with
  | 0x80 => { f with mode := .erase }
  | 0x90 => { f with idMode := true }
  | 0xA0 => { f with mode := .write }
  | 0xB0 => { f with mode := .bankSwitch }
  | 0xF0 => { f with idMode := false }
  | 0x10 =>
    if f.mode = .erase then { f with store := f.store.fill 0 0x20000 0xFF#8, mode := .idle }
    else f
  | _ => f

/-- `used_flash` is set by a command that leaves a mode or id-mode on (R146, R151). -/
def Flash.noteUse (f : Flash) : Flash :=
  if f.mode ≠ .idle ∨ f.idMode then { f with used := true } else f

/-- `FlashCommand(v)` (R146). -/
def Flash.command (f : Flash) (v : Byte) : Flash :=
  (f.commandEffect v).noteUse

/-- The guard sequence (R144). -/
def Flash.guardStep (f : Flash) (a : Nat) (v : Byte) : Flash :=
  if a = 0x5555 ∧ v = 0xAA#8 then { f with guard := 1 }
  else if f.guard = 1 ∧ a = 0x2AAA ∧ v = 0x55#8 then { f with guard := 2 }
  else { f with guard := 0 }

/-- The Flash part of `BackupWriteByte(a, v)`, the first matching branch (R142). -/
def Flash.writeByte (f : Flash) (a : Nat) (v : Byte) : Flash :=
  if f.mode = .write then
    { f with store := f.store.write (f.index a) v, mode := .idle, guard := 0 }
  else if f.mode = .bankSwitch ∧ a = 0 then
    { f with bank := v.getLsbD 0, mode := .idle, guard := 0 }
  else if f.guard = 2 ∧ a = 0x5555 then
    { f.command v with guard := 0 }
  else if f.guard = 2 ∧ f.mode = .erase ∧ v = 0x30#8 then
    { f with store := f.store.fill (f.index (a / 0x1000 * 0x1000)) 0x1000 0xFF#8, mode := .idle, guard := 0 }
  else f.guardStep a v

/-- `BackupWriteByte(a, v)` (R142); the byte also lands in SRAM while `used_flash` was false (R143). -/
def backupWriteByte (a : Nat) (v : Byte) (b : Bus) : Bus :=
  { b with
    flash := b.flash.writeByte a v
    mem := if b.flash.used then b.mem else b.mem.write (sramKey a) v }

/-- The address part of `EEPROM_WINDOW(addr)`: the predicate of R158, or the parameter's own on the ROM window (R7). -/
def eepromAddress (p : Params) (a : Word) : Bool :=
  match p.eepromWindow with
  | .bySize =>
    a.extractLsb' 24 8 == 0x0D#8 &&
      (decide (p.romSize ≤ 0x01000000) || decide (0xFFFF00 ≤ (a.extractLsb' 0 24).toNat))
  | .ranges l =>
    decide (0x08#8 ≤ a.extractLsb' 24 8) && decide (a.extractLsb' 24 8 ≤ 0x0D#8) &&
      l.any fun r => decide (r.1 ≤ a) && decide (a ≤ r.2)

/-- `EEPROM_WINDOW(addr)` for a write (`isWrite`) or a read: reads only once `ee_used` is set (R158). -/
def eepromWindow (b : Bus) (a : Word) (isWrite : Bool) : Bool :=
  (isWrite || b.eeprom.used) && eepromAddress b.params a

/-- The bits `ee_buf[from] ++ … ++ ee_buf[from + n - 1]`, the first most significant (R161, R162). -/
def Eeprom.field (e : Eeprom) (start : Nat) : Nat → Nat
  | 0 => 0
  | n + 1 => 2 * e.field start n + (e.buf.getLsbD (start + n)).toNat

/-- The address width that a request length gives (R161, R162). -/
def eepromAddrBits (len : Nat) : Option Nat :=
  if len = 9 ∨ len = 73 then some 6
  else if len = 17 ∨ len = 81 then some 14
  else none

/-- The eight payload bytes of a write request stored from an address, payload bits from `start` (R162). -/
def Eeprom.storePayload (e : Eeprom) (base : Nat) (start : Nat) : Nat → Memory
  | 0 => e.store
  | k + 1 => (e.storePayload base start k).write (base + k) (BitVec.ofNat 8 (e.field (start + 8 * k) 8))

/-- The capture of a request of length `len` with address width `n` (R162). -/
def Eeprom.request (e : Eeprom) (len n : Nat) : Eeprom :=
  let m := e.field 0 2
  let addr := BitVec.ofNat 13 (e.field 2 n * 8)
  if m = 3 ∧ (len = 9 ∨ len = 17) then
    { e with addrBits := some n, addr := addr, readAddr := addr, readIdx := 0 }
  else if m = 2 ∧ (len = 73 ∨ len = 81) then
    { e with
      addrBits := some n
      addr := addr
      store := e.storePayload addr.toNat (2 + n) 8
      readIdx := 68 }
  else e

/-- `EepromComplete()` (R162). -/
def Eeprom.complete (e : Eeprom) (len : Nat) : Eeprom :=
  let e := match eepromAddrBits len with
    | some n => e.request len n
    | none => e
  { e with idx := 0 }

/-- One bit shifted into `ee_buf` (R160). -/
def Eeprom.shiftIn (e : Eeprom) (bit : Bool) : Eeprom :=
  let e := { e with used := true }
  if e.idx < 256 then
    { e with
      buf := mergeBits (1#256 <<< e.idx) e.buf ((BitVec.ofBool bit).setWidth 256 <<< e.idx)
      idx := e.idx + 1 }
  else e

/-- `EepromWriteBit(b)` of a DMA transfer (R160): the bit that brings `ee_idx` to `ee_req_len` completes the request. -/
def Eeprom.writeBit (e : Eeprom) (bit : Bool) : Eeprom :=
  let e := e.shiftIn bit
  match e.reqLen with
  | some len => if e.idx = len then e.complete len else e
  | none => e

/-- Who drives a bus write: the CPU, or a DMA transfer. -/
inductive BusMaster where
  | cpu
  | dma
  deriving DecidableEq, Repr

/-- One bit supplied by a bus write (R160): "Bits written by the CPU outside a DMA transfer accumulate in `ee_buf` and
complete nothing", though `ee_req_len` stays set after a channel-3 run (log entry 30). -/
def Eeprom.supplyBit (m : BusMaster) (e : Eeprom) (bit : Bool) : Eeprom :=
  match m with
  | .cpu => e.shiftIn bit
  | .dma => e.writeBit bit

/-- The bit that `EepromReadBit()` returns (R164, R165). -/
def Eeprom.readBit (e : Eeprom) : Bool :=
  if e.readIdx < 4 then false
  else if e.readIdx < 68 then
    let j := e.readIdx - 4
    (e.store.read (e.readAddr.toNat + j / 8)).getLsbD (7 - j % 8)
  else true

/-- The read index after `EepromReadBit()` (R164). -/
def Eeprom.afterRead (e : Eeprom) : Eeprom :=
  if e.readIdx < 68 then { e with readIdx := e.readIdx + 1 } else e

end Sys2Proof.Machine
end

