-- ==== Sys2Proof/Machine/Io.lean ====
section
/-! DEFINITION. The I/O register file, byte lane by byte lane (spec `22_io_registers.md`). -/

namespace Sys2Proof.Machine

/-- A byte lane of the I/O file: a register of R174 and the lane's number in it, or a lane of no such register. -/
inductive IoLane where
  | dispcnt (k : Nat)
  | dispstat (k : Nat)
  | vcount (k : Nat)
  | soundcntH (k : Nat)
  | fifoA
  | fifoB
  | dmaSad (c : Fin 4) (k : Nat)
  | dmaDad (c : Fin 4) (k : Nat)
  | dmaCntL (c : Fin 4) (k : Nat)
  | dmaCntH (c : Fin 4) (k : Nat)
  | tmCntL (t : Fin 4) (k : Nat)
  | tmCntH (t : Fin 4) (k : Nat)
  | keyinput (k : Nat)
  | keycnt (k : Nat)
  | ie (k : Nat)
  | irf (k : Nat)
  | waitcnt (k : Nat)
  | ime (k : Nat)
  | postflg
  | haltcnt
  | other (off : Nat)
  deriving DecidableEq, Repr

/-- The lane of a channel at `d` bytes past its base, `d < 12` (R184, R185). -/
def dmaLane (c : Fin 4) (d : Nat) : IoLane :=
  if d < 4 then .dmaSad c d
  else if d < 8 then .dmaDad c (d - 4)
  else if d < 10 then .dmaCntL c (d - 8)
  else .dmaCntH c (d - 10)

/-- The lane of a timer at `d` bytes past its base, `d < 4` (R191, R192). -/
def timerLane (t : Fin 4) (d : Nat) : IoLane :=
  if d < 2 then .tmCntL t d else .tmCntH t (d - 2)

/-- The lane at an offset from 0x04000000 (the table of R174). -/
def ioLane (off : Nat) : IoLane :=
  if off < 0x002 then .dispcnt off
  else if 0x004 ≤ off ∧ off < 0x006 then .dispstat (off - 0x004)
  else if 0x006 ≤ off ∧ off < 0x008 then .vcount (off - 0x006)
  else if 0x082 ≤ off ∧ off < 0x084 then .soundcntH (off - 0x082)
  else if 0x0A0 ≤ off ∧ off < 0x0A4 then .fifoA
  else if 0x0A4 ≤ off ∧ off < 0x0A8 then .fifoB
  else if 0x0B0 ≤ off ∧ off < 0x0BC then dmaLane 0 (off - 0x0B0)
  else if 0x0BC ≤ off ∧ off < 0x0C8 then dmaLane 1 (off - 0x0BC)
  else if 0x0C8 ≤ off ∧ off < 0x0D4 then dmaLane 2 (off - 0x0C8)
  else if 0x0D4 ≤ off ∧ off < 0x0E0 then dmaLane 3 (off - 0x0D4)
  else if 0x100 ≤ off ∧ off < 0x104 then timerLane 0 (off - 0x100)
  else if 0x104 ≤ off ∧ off < 0x108 then timerLane 1 (off - 0x104)
  else if 0x108 ≤ off ∧ off < 0x10C then timerLane 2 (off - 0x108)
  else if 0x10C ≤ off ∧ off < 0x110 then timerLane 3 (off - 0x10C)
  else if 0x130 ≤ off ∧ off < 0x132 then .keyinput (off - 0x130)
  else if 0x132 ≤ off ∧ off < 0x134 then .keycnt (off - 0x132)
  else if 0x200 ≤ off ∧ off < 0x202 then .ie (off - 0x200)
  else if 0x202 ≤ off ∧ off < 0x204 then .irf (off - 0x202)
  else if 0x204 ≤ off ∧ off < 0x206 then .waitcnt (off - 0x204)
  else if 0x208 ≤ off ∧ off < 0x20A then .ime (off - 0x208)
  else if off = 0x300 then .postflg
  else if off = 0x301 then .haltcnt
  else .other off

/-- The entry of the parameter `IoOther` for an offset (R214). -/
def ioOtherSpec (p : Params) (off : Nat) : Option IoLaneSpec :=
  p.ioOther.find? fun s => s.offset = off

/-- `IoReadByte(off)` (R171): the readable bits of the lane; no read changes state (R172). -/
def ioReadByte (b : Bus) (off : Nat) : Byte :=
  match ioLane off with
  | .dispcnt k => lane b.io.dispcnt k
  | .dispstat k => lane b.io.dispstat k
  | .vcount k => if k = 0 then BitVec.ofNat 8 b.io.vcount else 0#8
  | .soundcntH k => lane b.io.soundcntH k
  | .fifoA => 0#8
  | .fifoB => 0#8
  | .dmaSad _ _ => 0#8
  | .dmaDad _ _ => 0#8
  | .dmaCntL _ _ => 0#8
  | .dmaCntH c k => lane (b.io.dma.get c).cntH k
  | .tmCntL t k => lane (BitVec.ofNat 16 (b.io.timer.get t).counter) k
  | .tmCntH t k => if k = 0 then (b.io.timer.get t).control else 0#8
  | .keyinput k => lane b.io.keyinput k
  | .keycnt k => lane b.io.keycnt k
  | .ie k => lane b.io.ie k
  | .irf k => lane b.io.irf k
  | .waitcnt k => lane b.io.waitcnt k
  | .ime k => if k = 0 then (BitVec.ofBool b.io.ime).setWidth 8 else 0#8
  | .postflg => (BitVec.ofBool b.io.postflg).setWidth 8
  | .haltcnt => 0#8
  | .other off =>
    match ioOtherSpec b.params off with
    | some s => b.io.other.read off &&& s.readMask
    | none => 0#8

/-- `RaiseIrq(k)` (`60_exceptions.md` R541). -/
def raiseIrq (k : Nat) (b : Bus) : Bus :=
  { b with io := { b.io with irf := b.io.irf ||| (1#16 <<< k) } }

/-- `IE AND IF AND 0x3FFF` is not zero (`60_exceptions.md` R545, R570). -/
def irqPending (b : Bus) : Bool :=
  (b.io.ie &&& b.io.irf &&& 0x3FFF#16) != 0#16

/-- One DMA channel changed. -/
def updDma (c : Fin 4) (f : DmaChannel → DmaChannel) (b : Bus) : Bus :=
  { b with io := { b.io with dma := b.io.dma.set c (f (b.io.dma.get c)) } }

/-- One timer changed. -/
def updTimer (t : Fin 4) (f : Timer → Timer) (b : Bus) : Bus :=
  { b with io := { b.io with timer := b.io.timer.set t (f (b.io.timer.get t)) } }

/-- `fifo_len + 1`, at most 32 (R181, `50_dma.md` R515). -/
def fifoAppend (n : Nat) : Nat := min 32 (n + 1)

/-- The write of a SOUNDCNT_H lane (R180): bits 11 and 15, the FIFO resets, are not stored. -/
def writeSoundcntH (k : Nat) (v : Byte) (io : Io) : Io :=
  if k = 0 then { io with soundcntH := setLane io.soundcntH 0 v }
  else
    { io with
      soundcntH := setLane io.soundcntH 1 (v &&& 0x77#8)
      fifoA := if v.getLsbD 3 then 0 else io.fifoA
      fifoB := if v.getLsbD 7 then 0 else io.fifoB }

/-- The write of the low byte of TMtCNT_H (R192, R193): enabling reloads the counter and clears the accumulator. -/
def Timer.writeControl (t : Timer) (v : Byte) : Timer :=
  let v := v &&& 0xC7#8
  if t.control.getLsbD 7 = false ∧ v.getLsbD 7 then
    { t with control := v, counter := t.reload.toNat, acc := 0 }
  else { t with control := v }

/-- The write of a CNT_H lane before its side effect (R185): bits 4:0 are not stored. -/
def DmaChannel.writeCntH (d : DmaChannel) (k : Nat) (v : Byte) : DmaChannel :=
  { d with cntH := setLane d.cntH k (if k = 0 then v &&& 0xE0#8 else v) }

/-- The lane write of a channel's high control byte flips ENABLE from 0 to 1 (R186). -/
def enableFlips (d : DmaChannel) (k : Nat) (v : Byte) : Bool :=
  k == 1 && !d.cntH.getLsbD 15 && v.getLsbD 7

/-- The write mask of a WAITCNT lane (R199): bits 13 and 15 are not written. -/
def waitcntMask (k : Nat) : Byte :=
  if k = 0 then 0xFF#8 else 0x5F#8

/-- A sound master-enable gate of `IoOther` is open (R214, `20_memory.md` R96). -/
def ioGateOpen (b : Bus) (s : IoLaneSpec) : Bool :=
  match s.gate with
  | none => true
  | some (off, bit) => (b.io.other.read off).getLsbD bit

/-- `IoWriteByte(off, v)` (R171): the lane's writable bits, then the register's side effect.
`edge` is the effect of an enable edge on a DMA channel (R186); `r15` gates DISPCNT bit 3 (R176). -/
def ioWriteByte (edge : Fin 4 → Bus → Bus) (r15 : Word) (off : Nat) (v : Byte) (b : Bus) : Bus :=
  match ioLane off with
  | .dispcnt k =>
    let mask : Byte := if k = 0 ∧ ¬ r15 < 0x4000#32 then 0xF7#8 else 0xFF#8
    { b with io := { b.io with dispcnt := setLane b.io.dispcnt k (mergeBits mask (lane b.io.dispcnt k) v) } }
  | .dispstat k =>
    let mask : Byte := if k = 0 then 0x38#8 else 0xFF#8
    { b with io := { b.io with dispstat := setLane b.io.dispstat k (mergeBits mask (lane b.io.dispstat k) v) } }
  | .vcount _ => b
  | .soundcntH k => { b with io := writeSoundcntH k v b.io }
  | .fifoA => { b with io := { b.io with fifoA := fifoAppend b.io.fifoA } }
  | .fifoB => { b with io := { b.io with fifoB := fifoAppend b.io.fifoB } }
  | .dmaSad c k => updDma c (fun d => { d with sad := setLane d.sad k v }) b
  | .dmaDad c k => updDma c (fun d => { d with dad := setLane d.dad k v }) b
  | .dmaCntL c k => updDma c (fun d => { d with cntL := setLane d.cntL k v }) b
  | .dmaCntH c k =>
    let b' := updDma c (fun d => d.writeCntH k v) b
    if enableFlips (b.io.dma.get c) k v then edge c b' else b'
  | .tmCntL t k => updTimer t (fun d => { d with reload := setLane d.reload k v }) b
  | .tmCntH t k => if k = 0 then updTimer t (fun d => d.writeControl v) b else b
  | .keyinput _ => b
  | .keycnt k => { b with io := { b.io with keycnt := setLane b.io.keycnt k v } }
  | .ie k => { b with io := { b.io with ie := setLane b.io.ie k (if k = 0 then v else v &&& 0x3F#8) } }
  | .irf k => { b with io := { b.io with irf := setLane b.io.irf k (lane b.io.irf k &&& ~~~v) } }
  | .waitcnt k =>
    let w := setLane b.io.waitcnt k (v &&& waitcntMask k)
    { b with io := { b.io with waitcnt := w }, wait := WaitTables.compute b.params.regionBase w }
  | .ime k => if k = 0 then { b with io := { b.io with ime := v.getLsbD 0 } } else b
  | .postflg => { b with io := { b.io with postflg := v.getLsbD 0 } }
  | .haltcnt => { b with run := if v.getLsbD 7 then .stop else .halt }
  | .other off =>
    match ioOtherSpec b.params off with
    | some s =>
      if ioGateOpen b s then
        { b with io := { b.io with other := b.io.other.write off (mergeBits s.writeMask (b.io.other.read off) v) } }
      else b
    | none => b

end Sys2Proof.Machine
end

