-- ==== Sys2Proof/Machine/Bus.lean ====
section
/-! DEFINITION. The bus: address decode, width policy, alignment (spec `20_memory.md` R71-R91). -/

namespace Sys2Proof.Machine

/-- The regions of the address map (R71). -/
inductive Region where
  | bios
  | unmapped
  | ewram
  | iwram
  | io
  | pal
  | vram
  | oam
  | rom
  | backup
  deriving DecidableEq, Repr

/-- "every address must be dispatched by its top byte" (R71). -/
def regionOf (a : Word) : Region :=
  match (a.extractLsb' 24 8).toNat with
  | 0x00 => .bios
  | 0x02 => .ewram
  | 0x03 => .iwram
  | 0x04 => .io
  | 0x05 => .pal
  | 0x06 => .vram
  | 0x07 => .oam
  | 0x08 => .rom | 0x09 => .rom | 0x0A => .rom | 0x0B => .rom | 0x0C => .rom | 0x0D => .rom
  | 0x0E => .backup
  | _ => .unmapped

/-- `off = addr[23:0]`. -/
def offsetOf (a : Word) : Nat := (a.extractLsb' 0 24).toNat

/-- The canonical address that keys a byte of EWRAM, IWRAM, PAL, VRAM or OAM (the index column of R71, R78). -/
def ramKey (a : Word) : Nat :=
  match regionOf a with
  | .ewram => 0x02000000 + (a &&& 0x3FFFF#32).toNat
  | .iwram => 0x03000000 + (a &&& 0x7FFF#32).toNat
  | .pal => 0x05000000 + (a &&& 0x3FF#32).toNat
  | .vram => 0x06000000 + (a &&& (if a.getLsbD 16 then 0x17FFF#32 else 0x1FFFF#32)).toNat
  | .oam => 0x07000000 + (a &&& 0x3FF#32).toNat
  | _ => 0

/-- The index into `ROM_IMAGE` (R80). -/
def romIndex (a : Word) : Nat := (a &&& 0x01FFFFFF#32).toNat

/-- A read of the BIOS region is permitted (R72). -/
def biosPermitted (r15 a : Word) : Bool :=
  decide (offsetOf a < 0x4000) && decide (r15 < 0x4000#32)

/-- One byte of the ROM window, byte `k` of an access of width `w` at `a`; beyond `ROM_SIZE` it is `ROM_OOB` (R80). -/
def romByte (b : Bus) (a : Word) (w : Width) (k : Nat) : Byte :=
  if romIndex a + k < b.params.romSize then b.params.rom.read (romIndex a + k)
  else lane (Config.romOob a w.bytes) k

/-- Byte `k` of a read of width `w` at the aligned address `a`, the EEPROM window apart (R72-R84). -/
def readLane (b : Bus) (r15 a : Word) (w : Width) (k : Nat) : Byte :=
  match regionOf a with
  | .bios =>
    if biosPermitted r15 a then b.params.bios.read (offsetOf a + k)
    else lane b.biosBus ((a &&& 3#32).toNat + k)
  | .unmapped => lane (Config.openBus a w.bytes) k
  | .ewram => b.mem.read (ramKey a + k)
  | .iwram => b.mem.read (ramKey a + k)
  | .io => if offsetOf a ≤ 0x3FF then ioReadByte b (offsetOf a + k) else 0#8
  | .pal => b.mem.read (ramKey a + k)
  | .vram => b.mem.read (ramKey a + k)
  | .oam => b.mem.read (ramKey a + k)
  | .rom => romByte b a w k
  | .backup => backupReadByte b ((a &&& 0xFFFF#32).toNat + k)

/-- The value of `MemReadRaw(addr, n)` (R89), low bytes of a word. -/
def readRaw (b : Bus) (r15 addr : Word) (w : Width) : Word :=
  let a := w.align addr
  if eepromWindow b a false then (BitVec.ofBool b.eeprom.readBit).setWidth 32
  else assemble w (readLane b r15 a w)

/-- The bus after `MemReadRaw(addr, n)`: only an EEPROM read changes it (R94). -/
def afterRead (b : Bus) (addr : Word) (w : Width) : Bus :=
  if eepromWindow b (w.align addr) false then { b with eeprom := b.eeprom.afterRead } else b

/-- The store of a PAL or VRAM write: a byte lands twice (R77, R78). -/
def writeVideo (m : Memory) (a : Word) (w : Width) (v : Word) : Memory :=
  match w with
  | .byte => (m.write (ramKey (a &&& 0xFFFFFFFE#32)) (lane v 0)).write (ramKey (a &&& 0xFFFFFFFE#32) + 1) (lane v 0)
  | .half => writeBytes m (ramKey a) .half v
  | .word => writeBytes m (ramKey a) .word v

/-- `MemWrite(addr, n, v)` (R91, R86) of a bus master, with the effect `edge` of a DMA enable edge and the live `r15`. -/
def writeWith (m : BusMaster) (edge : Fin 4 → Bus → Bus) (r15 addr : Word) (w : Width) (v : Word) (b : Bus) : Bus :=
  let a := w.align addr
  if eepromWindow b a true then { b with eeprom := b.eeprom.supplyBit m (v.getLsbD 0) }
  else
    match regionOf a with
    | .bios => b
    | .unmapped => b
    | .ewram => { b with mem := writeBytes b.mem (ramKey a) w v }
    | .iwram => { b with mem := writeBytes b.mem (ramKey a) w v }
    | .io =>
      if offsetOf a ≤ 0x3FF then eachLane w v (fun k u => ioWriteByte edge r15 (offsetOf a + k) u) b
      else b
    | .pal => { b with mem := writeVideo b.mem a w v }
    | .vram => { b with mem := writeVideo b.mem a w v }
    | .oam => if w = .byte then b else { b with mem := writeBytes b.mem (ramKey a) w v }
    | .rom => b
    | .backup => eachLane w v (fun k u => backupWriteByte ((a &&& 0xFFFF#32).toNat + k) u) b

/-- The word of `BIOS_IMAGE` at an offset (R76). -/
def biosWord (p : Params) (off : Nat) : Word :=
  readBytes p.bios (off / 4 * 4) .word

/-- The value of `Fetch(a)` (`10_state.md` R34); for a fetch r15 is the fetch address (R72). -/
def fetchValue (b : Bus) (a : Word) (w : Width) : Word :=
  readRaw b a a w

/-- The bus after `Fetch(a)`: a permitted BIOS fetch updates the BIOS bus latch (R76). -/
def afterFetch (b : Bus) (a : Word) (w : Width) : Bus :=
  let b' := afterRead b a w
  if regionOf (w.align a) = .bios ∧ biosPermitted a (w.align a) then
    { b' with biosBus := biosWord b.params (offsetOf (w.align a)) }
  else b'

end Sys2Proof.Machine
end

