-- ==== Sys2Proof/Machine/Dma.lean ====
section
/-! DEFINITION. The DMA controller (spec `50_dma.md`). -/

namespace Sys2Proof

/-- The parameter `DMA_COST` where `Params` does not choose the sum: the cycles charged for a transfer of `units` units on a
channel, in the bus state in which it begins. FREE VALUE, log entry 14. -/
opaque Config.dmaCost (c : Fin 4) (units : Nat) (b : Machine.Bus) : Nat

end Sys2Proof

namespace Sys2Proof.Machine

/-- `DMA_COST` of a transfer of `units` units (R500, `70_reset_and_hazards.md` R614; log entry 14). -/
def dmaCost (c : Fin 4) (units : Nat) (b : Bus) : Nat :=
  match b.params.dmaCost with
  | .perUnit fixed unit => fixed + unit * units
  | .other => Config.dmaCost c units b

/-- The charge for a transfer that begins. -/
def chargeDma (c : Fin 4) (units : Nat) (b : Bus) : Bus :=
  { b with dmaCycles := b.dmaCycles + dmaCost c units b }

/-- `unit(c)` (R493). -/
def DmaChannel.width (d : DmaChannel) : Width :=
  if d.cntH.getLsbD 10 then .word else .half

/-- `Count(c)` (R492). -/
def dmaCount (c : Fin 4) (d : DmaChannel) : Nat :=
  if d.cntL ≠ 0#16 then d.cntL.toNat
  else if c = 3 then 0x10000
  else 0x4000

/-- `sstep` for a unit size; mode 3 is treated as +unit (R494). -/
def DmaChannel.sstep (d : DmaChannel) (w : Width) : Word :=
  match (d.cntH.extractLsb' 7 2).toNat with
  | 0 => BitVec.ofNat 32 w.bytes
  | 1 => - BitVec.ofNat 32 w.bytes
  | 2 => 0#32
  | _ => BitVec.ofNat 32 w.bytes

/-- `dstep` for a unit size (R494). -/
def DmaChannel.dstep (d : DmaChannel) (w : Width) : Word :=
  match (d.cntH.extractLsb' 5 2).toNat with
  | 0 => BitVec.ofNat 32 w.bytes
  | 1 => - BitVec.ofNat 32 w.bytes
  | 2 => 0#32
  | _ => BitVec.ofNat 32 w.bytes

/-- The latch of an enable edge (R495). -/
def dmaLatch (c : Fin 4) (d : DmaChannel) : DmaChannel :=
  { d with src := d.width.align d.sad, dst := d.width.align d.dad, remaining := dmaCount c d }

/-- The latched addresses after one unit of width `w` (R497): the modes are those of CNT_H as it now is (R494; log entry 22). -/
def DmaChannel.advance (d : DmaChannel) (w : Width) : DmaChannel :=
  { d with src := d.src + d.sstep w, dst := d.dst + d.dstep w, remaining := d.remaining - 1 }

/-- `DmaUnit(c)` and the count of R499. -/
def dmaUnit (edge : Fin 4 → Bus → Bus) (r15 : Word) (c : Fin 4) (b : Bus) : Bus :=
  let d := b.io.dma.get c
  let w := d.width
  let v := readRaw b r15 d.src w
  updDma c (fun d => d.advance w) (writeWith .dma edge r15 d.dst w v (afterRead b d.src w))

/-- `n` units one after the other. -/
def dmaUnits (edge : Fin 4 → Bus → Bus) (r15 : Word) (c : Fin 4) : Nat → Bus → Bus
  | 0, b => b
  | n + 1, b => dmaUnits edge r15 c n (dmaUnit edge r15 c b)

/-- The channel after `DmaComplete(c)` (R505). -/
def dmaCompleteChannel (c : Fin 4) (d : DmaChannel) : DmaChannel :=
  if d.cntH.getLsbD 9 then
    { d with
      remaining := dmaCount c d
      dst := if d.cntH.extractLsb' 5 2 = 3#2 then d.width.align d.dad else d.dst }
  else { d with cntH := d.cntH &&& 0x7FFF#16 }

/-- `DmaComplete(c)` (R504, R505). -/
def dmaComplete (c : Fin 4) (b : Bus) : Bus :=
  let b' := if (b.io.dma.get c).cntH.getLsbD 14 then raiseIrq (8 + c.val) b else b
  updDma c (dmaCompleteChannel c) b'

/-- The start of `DmaRun(3)` restarts the EEPROM request (R501); every run is charged `DMA_COST` (R500; log entry 14). -/
def dmaStart (c : Fin 4) (b : Bus) : Bus :=
  let n := (b.io.dma.get c).remaining
  let b := chargeDma c n b
  if c = 3 then { b with eeprom := { b.eeprom with idx := 0, reqLen := some n } } else b

/-- `DmaEnableEdge(c)` with a given run (R495). -/
def enableEdgeWith (run : Fin 4 → Bus → Bus) (c : Fin 4) (b : Bus) : Bus :=
  let b := updDma c (dmaLatch c) b
  if (b.io.dma.get c).cntH.extractLsb' 12 2 = 0#2 then run c b else b

/-- `DmaRun(c)` (R499) nested in the runs of `running`, at most `depth` deep: an enable edge on another channel nests, an
edge on a channel in the middle of its run is refused (R506; log entry 15). Four channels never nest deeper than four.
A unit that clears ENABLE of a running channel stops nothing: the loop of R499 tests `remaining` alone (log entry 31). -/
def dmaRun : Nat → List (Fin 4) → Word → Fin 4 → Bus → Bus
  | 0, _, _, c, b => { b with refusal := some (.dmaReentry c) }
  | depth + 1, running, r15, c, b =>
    let edge : Fin 4 → Bus → Bus := fun c' b' =>
      if c' ∈ c :: running then { b' with refusal := some (.dmaReentry c') }
      else enableEdgeWith (dmaRun depth (c :: running) r15) c' b'
    let b := dmaStart c b
    dmaComplete c (dmaUnits edge r15 c (b.io.dma.get c).remaining b)

/-- An enable edge outside any run (R186, R495). -/
def dmaEnableEdge (r15 : Word) (c : Fin 4) (b : Bus) : Bus :=
  enableEdgeWith (dmaRun 4 [] r15) c b

/-- `MemWrite(addr, n, v)` of the CPU (R91). -/
def busWrite (r15 addr : Word) (w : Width) (v : Word) (b : Bus) : Bus :=
  writeWith .cpu (dmaEnableEdge r15) r15 addr w v b

/-- The channel is enabled with a TIMING (R502, R512). -/
def DmaChannel.armed (d : DmaChannel) (timing : BitVec 2) : Bool :=
  d.cntH.getLsbD 15 && d.cntH.extractLsb' 12 2 == timing

/-- One channel's turn in `DmaTrigger(k)` (R502). -/
def dmaTriggerOne (timing : BitVec 2) (r15 : Word) (c : Fin 4) (b : Bus) : Bus :=
  if (b.io.dma.get c).armed timing then dmaRun 4 [] r15 c b else b

/-- `DmaTrigger(k)`: k = 1 V-blank, 2 H-blank (R491, R502). -/
def dmaTrigger (timing : BitVec 2) (r15 : Word) (b : Bus) : Bus :=
  dmaTriggerOne timing r15 3 (dmaTriggerOne timing r15 2 (dmaTriggerOne timing r15 1 (dmaTriggerOne timing r15 0 b)))

/-- One word of `FifoDma` (R512). -/
def fifoDmaUnit (r15 : Word) (c : Fin 4) (reg : Word) (b : Bus) : Bus :=
  let src := (b.io.dma.get c).src
  let v := readRaw b r15 src .word
  updDma c (fun d => { d with src := d.src + d.sstep .word })
    (busWrite r15 reg .word v (afterRead b src .word))

/-- `FifoDma(x)` (R511, R512): four words from the latched source to the FIFO register. -/
def fifoDma (r15 : Word) (c : Fin 4) (reg : Word) (b : Bus) : Bus :=
  if (b.io.dma.get c).armed 3#2 then
    let b := chargeDma c 4 b
    fifoDmaUnit r15 c reg (fifoDmaUnit r15 c reg (fifoDmaUnit r15 c reg (fifoDmaUnit r15 c reg b)))
  else b

end Sys2Proof.Machine
end

