-- ==== Sys2Proof/Machine/Ops.lean ====
section
/-! DEFINITION. The named operations over registers, status, memory and exceptions that the meanings share
(spec `00_scope.md` R9, `10_state.md` R22-R31, `20_memory.md` R89-R91, `60_exceptions.md` R531-R534). -/

namespace Sys2Proof.Machine

/-- What a meaning answers. -/
abbrev Result := Host.Outcome State Fault Refusal

/-! ## Status register fields (R24) -/

/-- CPSR.N. -/
def State.flagN (s : State) : Bool := s.cpu.cpsr.getLsbD 31

/-- CPSR.Z. -/
def State.flagZ (s : State) : Bool := s.cpu.cpsr.getLsbD 30

/-- CPSR.C. -/
def State.flagC (s : State) : Bool := s.cpu.cpsr.getLsbD 29

/-- CPSR.V. -/
def State.flagV (s : State) : Bool := s.cpu.cpsr.getLsbD 28

/-- CPSR.I: 1 masks IRQ. -/
def State.flagI (s : State) : Bool := s.cpu.cpsr.getLsbD 7

/-- CPSR.F: 1 masks FIQ. -/
def State.flagF (s : State) : Bool := s.cpu.cpsr.getLsbD 6

/-- CPSR.T: 1 is Thumb state. -/
def State.thumb (s : State) : Bool := s.cpu.cpsr.getLsbD 5

/-- The mode field of a status value (R27). -/
def modeField (v : Word) : BitVec 5 := v.extractLsb' 0 5

/-- A status value names one of the seven modes (R27). -/
def legalMode (v : Word) : Bool := (Mode.ofBits (modeField v)).isSome

/-- The mode of a status value. The 25 other values, which no run installs (R27), see the USER registers (log entry 20). -/
def modeOf (v : Word) : Mode := (Mode.ofBits (modeField v)).getD .usr

/-- The current mode. -/
def State.mode (s : State) : Mode := modeOf s.cpu.cpsr

/-- A status value with another mode field. -/
def withMode (v : Word) (m : Mode) : Word := (v &&& 0xFFFFFFE0#32) ||| m.bits.setWidth 32

/-- `isize` (R9): the instruction width of the current state. -/
def State.fetchWidth (s : State) : Width := if s.thumb then .half else .word

/-- `isize` in bytes. -/
def State.isize (s : State) : Word := if s.thumb then 2#32 else 4#32

/-- CPSR replaced: a `SwitchMode` where the mode field changes (R23, R25). -/
def State.setCpsr (s : State) (v : Word) : State :=
  { s with cpu := { s.cpu with cpsr := v } }

/-! ## General registers (R21, R22, R29-R31) -/

/-- r15 as it is. -/
def State.r15 (s : State) : Word := s.cpu.regs.r15

/-- `x[i]`: the live view (R22); r15 reads as it is (R30). -/
def State.x (s : State) (i : Reg) : Word := s.cpu.regs.get (phys s.mode i)

/-- `xu[i]`: the USER row of the live view (R22). -/
def State.xu (s : State) (i : Reg) : Word := s.cpu.regs.get (phys .usr i)

/-- One physical register replaced. -/
def State.setPhys (s : State) (p : PhysReg) (v : Word) : State :=
  { s with cpu := { s.cpu with regs := s.cpu.regs.set p v } }

/-- A branch target aligned for the instruction state (R31). -/
def alignPc (thumb : Bool) (v : Word) : Word :=
  if thumb then v &&& 0xFFFFFFFE#32 else v &&& 0xFFFFFFFC#32

/-- `pc <- v` (R31): aligned for the current T, the latch emptied. -/
def State.writePc (s : State) (v : Word) : State :=
  { s with cpu := { s.cpu with regs := { s.cpu.regs with r15 := alignPc s.thumb v }, latchValid := false } }

/-- `x[i] <- v`; for r15 it is `pc <- v` (R9). -/
def State.setX (s : State) (i : Reg) (v : Word) : State :=
  if i = 15#4 then s.writePc v else s.setPhys (phys s.mode i) v

/-- `xu[i] <- v` (R9). -/
def State.setXu (s : State) (i : Reg) (v : Word) : State :=
  if i = 15#4 then s.writePc v else s.setPhys (phys .usr i) v

/-- A low register of a 3-bit field (R38). -/
def lo (r : LoReg) : Reg := r.setWidth 4

/-- `cycles += k` (R9). -/
def State.tally (s : State) (k : Nat) : State :=
  { s with cycles := s.cycles + k }

/-! ## Memory (R89-R91) -/

/-- The value of `MemReadRaw(addr, n)`. -/
def State.readRaw (s : State) (addr : Word) (w : Width) : Word :=
  Machine.readRaw s.bus s.r15 addr w

/-- The state after a read (R94). -/
def State.afterRead (s : State) (addr : Word) (w : Width) : State :=
  { s with bus := Machine.afterRead s.bus addr w }

/-- The rotation of `MemRead` (R90): by 8 times the address bits that the access ignores. -/
def rotateLoad (addr : Word) (w : Width) (v : Word) : Word :=
  match w with
  | .byte => v
  | .half => ror v (8 * (addr &&& 1#32).toNat)
  | .word => ror v (8 * (addr &&& 3#32).toNat)

/-- The value of `MemRead(addr, n)` (R90). -/
def State.memRead (s : State) (addr : Word) (w : Width) : Word :=
  rotateLoad addr w (s.readRaw addr w)

/-- `MemWrite(addr, n, v)` (R91). -/
def State.memWrite (s : State) (addr : Word) (w : Width) (v : Word) : State :=
  { s with bus := busWrite s.r15 addr w v s.bus }

/-! ## Outcomes -/

/-- `fatal <Reason>` (R37): the latch is set and nothing else of the instruction takes effect (log entry 16). -/
def fatal (f : Fault) (s : State) : Result :=
  .next { s with fatal := some f }

/-- `fatal ExecuteError(w, T)` of the executing instruction. -/
def fatalExecute (s : State) : Result :=
  fatal (.executeError s.cpu.cur s.thumb) s

/-- `fatal DecodeError(w, T)` of the executing instruction. -/
def fatalDecode (s : State) : Result :=
  fatal (.decodeError s.cpu.cur s.thumb) s

/-- `fatal Unimplemented(w)` of the executing instruction. -/
def fatalUnimplemented (s : State) : Result :=
  fatal (.unimplemented s.cpu.cur) s

/-- The end of an instruction that stores: refused if a store met the case R506 leaves open (log entry 15). -/
def finish (s : State) : Result :=
  match s.bus.refusal with
  | some r => .refused r
  | none => .next s

/-! ## Exceptions (R531-R534) -/

/-- The rows of R532. -/
inductive Exception where
  | reset
  | undefined
  | softwareInterrupt
  | prefetchAbort
  | dataAbort
  | address26
  | irq
  | fiq
  deriving DecidableEq, Repr

/-- The vector (R532). -/
def Exception.vector : Exception → Word
  | .reset => 0x00#32
  | .undefined => 0x04#32
  | .softwareInterrupt => 0x08#32
  | .prefetchAbort => 0x0C#32
  | .dataAbort => 0x10#32
  | .address26 => 0x14#32
  | .irq => 0x18#32
  | .fiq => 0x1C#32

/-- The mode entered (R532). -/
def Exception.mode : Exception → Mode
  | .reset => .svc
  | .undefined => .und
  | .softwareInterrupt => .svc
  | .prefetchAbort => .abt
  | .dataAbort => .abt
  | .address26 => .svc
  | .irq => .irq
  | .fiq => .fiq

/-- The entry also masks FIQ (R531). -/
def Exception.masksFiq : Exception → Bool
  | .reset => true
  | .fiq => true
  | .undefined => false
  | .softwareInterrupt => false
  | .prefetchAbort => false
  | .dataAbort => false
  | .address26 => false
  | .irq => false

/-- N, the next instruction, at the end of a step (R533). -/
def State.nextInstr (s : State) : Word :=
  if s.cpu.latchValid then s.r15 - s.isize else s.r15

/-- `IRQ_LR_BIAS(T)` (R534). -/
def State.irqLrBias (s : State) : Word :=
  if s.thumb then s.bus.params.irqLrBiasThumb else s.bus.params.irqLrBiasArm

/-- The return address of an entry (R532, R534), in the state before it: "PC-4" in both states for the rows that nothing
raises (log entry 26). RESET has none (R532) and takes r15. -/
def State.returnAddress (s : State) : Exception → Word
  | .irq => s.nextInstr + s.irqLrBias
  | .fiq => s.nextInstr + s.irqLrBias
  | .reset => s.r15
  | .undefined => s.r15 - s.isize
  | .softwareInterrupt => s.r15 - s.isize
  | .prefetchAbort => s.r15 - 4#32
  | .dataAbort => s.r15 - 4#32
  | .address26 => s.r15 - 4#32

/-- CPSR after an entry (R531): mode, I set, F set for RESET and FIQ, T clear, the rest kept. -/
def entryCpsr (old : Word) (e : Exception) : Word :=
  let v := setBit (setBit (withMode old e.mode) 7 true) 5 false
  if e.masksFiq then setBit v 6 true else v

/-- `Enter(E)` (R531): SPSR and r14 of the new mode, CPSR, the vector, an empty latch. -/
def State.enter (s : State) (e : Exception) : State :=
  { s with
    cpu :=
      { s.cpu with
        cpsr := entryCpsr s.cpu.cpsr e
        spsr := s.cpu.spsr.set e.mode s.cpu.cpsr
        regs := { s.cpu.regs.set (bank14 e.mode) (s.returnAddress e) with r15 := e.vector }
        latchValid := false } }

/-! ## Return from an exception (`40_arm_data_processing.md` R276, R536) -/

/-- CPSR <- SPSR would install one of the seven modes, or there is no SPSR and nothing to install (R276, R27). -/
def State.restoreLegal (s : State) : Bool :=
  match s.cpu.spsr.get s.mode with
  | some v => legalMode v
  | none => true

/-- CPSR <- SPSR of the mode; unchanged in USER and SYS (R276). -/
def State.restoreCpsr (s : State) : State :=
  match s.cpu.spsr.get s.mode with
  | some v => s.setCpsr v
  | none => s

/-- The state part of `RestoreCPSR_then(pc <- r)` (R276), for a legal SPSR. -/
def State.restoreThenPc (s : State) (r : Word) : State :=
  s.restoreCpsr.writePc r

end Sys2Proof.Machine
end

