-- ==== Sys2Proof/Machine/Flags.lean ====
section
/-! DEFINITION. Conditions and flag computations (spec `30_encoding.md` R221, `40_arm_data_processing.md` R262). -/

namespace Sys2Proof.Machine

/-- `cond_pass(c)` on a status value (R221). -/
def condHolds (v : Word) (c : Cond) : Bool :=
  let n := v.getLsbD 31
  let z := v.getLsbD 30
  let cf := v.getLsbD 29
  let vf := v.getLsbD 28
  match c with
  | .eq => z
  | .ne => !z
  | .cs => cf
  | .cc => !cf
  | .mi => n
  | .pl => !n
  | .vs => vf
  | .vc => !vf
  | .hi => cf && !z
  | .ls => !cf || z
  | .ge => n == vf
  | .lt => n != vf
  | .gt => !z && n == vf
  | .le => z || n != vf
  | .al => true
  | .nv => false

/-- `cond_pass(c)` (R221). -/
def State.condPass (s : State) (c : Cond) : Bool := condHolds s.cpu.cpsr c

/-- A conditional ARM instruction (`10_state.md` R34 phase 3): a failed condition tallies one cycle and does nothing else
(R221; log entry 18). -/
def conditional (c : Cond) (s : State) (k : State → Result) : Result :=
  if s.condPass c then k s else .next (s.tally 1)

/-- A status value with other flags N, Z, C, V. -/
def withFlags (v : Word) (n z c o : Bool) : Word :=
  setBit (setBit (setBit (setBit v 31 n) 30 z) 29 c) 28 o

/-- N, Z, C, V written. -/
def State.setNZCV (s : State) (n z c v : Bool) : State :=
  s.setCpsr (withFlags s.cpu.cpsr n z c v)

/-- N and Z from a result, C and V given (R262). -/
def State.setResultFlags (s : State) (r : Word) (c v : Bool) : State :=
  s.setNZCV (r.getLsbD 31) (r == 0#32) c v

/-- N and Z from a result, C and V unchanged. -/
def State.setNZ (s : State) (r : Word) : State :=
  s.setResultFlags r s.flagC s.flagV

/-- A value with a carry and an overflow. -/
structure AluOut where
  value : Word
  carry : Bool
  overflow : Bool
  deriving DecidableEq, Repr

/-- `AddC(a, b, cin)` (R262). -/
def addC (a b : Word) (cin : Bool) : AluOut :=
  let sum := a.toNat + b.toNat + cin.toNat
  let r := BitVec.ofNat 32 sum
  { value := r
    carry := decide (2 ^ 32 ≤ sum)
    overflow := a.getLsbD 31 == b.getLsbD 31 && r.getLsbD 31 != a.getLsbD 31 }

/-- What an operation sees beside its operands: the shifter carry and CPSR.C and CPSR.V before the instruction (R263). -/
structure AluIn where
  shiftCarry : Bool
  carry : Bool
  overflow : Bool
  deriving DecidableEq, Repr

/-- The logical class (R262): C from the shifter, V unchanged. -/
def logical (r : Word) (i : AluIn) : AluOut := ⟨r, i.shiftCarry, i.overflow⟩

/-- AND, TST (R264, R272). -/
def aluAnd (a b : Word) (i : AluIn) : AluOut := logical (a &&& b) i

/-- EOR, TEQ (R265, R273). -/
def aluEor (a b : Word) (i : AluIn) : AluOut := logical (a ^^^ b) i

/-- SUB, CMP (R266, R274). -/
def aluSub (a b : Word) (_ : AluIn) : AluOut := addC a (~~~b) true

/-- RSB (R267). -/
def aluRsb (a b : Word) (_ : AluIn) : AluOut := addC b (~~~a) true

/-- ADD, CMN (R268, R275). -/
def aluAdd (a b : Word) (_ : AluIn) : AluOut := addC a b false

/-- ADC (R269). -/
def aluAdc (a b : Word) (i : AluIn) : AluOut := addC a b i.carry

/-- SBC (R270). -/
def aluSbc (a b : Word) (i : AluIn) : AluOut := addC a (~~~b) i.carry

/-- RSC (R271). -/
def aluRsc (a b : Word) (i : AluIn) : AluOut := addC b (~~~a) i.carry

/-- ORR (R277). -/
def aluOrr (a b : Word) (i : AluIn) : AluOut := logical (a ||| b) i

/-- MOV (R278). -/
def aluMov (_ b : Word) (i : AluIn) : AluOut := logical b i

/-- BIC (R279). -/
def aluBic (a b : Word) (i : AluIn) : AluOut := logical (a &&& ~~~b) i

/-- MVN (R280). -/
def aluMvn (_ b : Word) (i : AluIn) : AluOut := logical (~~~b) i

end Sys2Proof.Machine
end

