-- ==== Sys2Proof/Machine/Operands.lean ====
section
/-! DEFINITION. The barrel shifter and every operand form (spec `40_arm_data_processing.md` R260, R261, R263;
`42_arm_load_store.md` R320-R322, R330, R336; `41_arm_multiply_psr.md` R306, R313). -/

namespace Sys2Proof.Machine

/-- `Shift` for an amount of at least 1 (R260). -/
def shiftBy (ty : ShiftType) (v : Word) (n : Nat) : Word × Bool :=
  match ty with
  | .lsl =>
    if n < 32 then (v <<< n, v.getLsbD (32 - n)) else if n = 32 then (0#32, v.getLsbD 0) else (0#32, false)
  | .lsr =>
    if n < 32 then (v >>> n, v.getLsbD (n - 1)) else if n = 32 then (0#32, v.getLsbD 31) else (0#32, false)
  | .asr =>
    if n < 32 then (v.sshiftRight n, v.getLsbD (n - 1))
    else (if v.getLsbD 31 then 0xFFFFFFFF#32 else 0#32, v.getLsbD 31)
  | .ror =>
    if n % 32 = 0 then (v, v.getLsbD 31) else (ror v (n % 32), v.getLsbD (n % 32 - 1))

/-- `Shift(type, v, n, c_in, true)`: an immediate amount, with the special cases of 0 (R260). -/
def shiftImm (ty : ShiftType) (v : Word) (n : BitVec 5) (cin : Bool) : Word × Bool :=
  if n = 0#5 then
    match ty with
    | .lsl => (v, cin)
    | .lsr => shiftBy .lsr v 32
    | .asr => shiftBy .asr v 32
    | .ror => ((BitVec.ofBool cin).setWidth 32 <<< 31 ||| v >>> 1, v.getLsbD 0)
  else shiftBy ty v n.toNat

/-- `Shift(type, v, n, c_in, false)`: an amount from a register's low byte (R260). -/
def shiftReg (ty : ShiftType) (v : Word) (n : Byte) (cin : Bool) : Word × Bool :=
  if n = 0#8 then (v, cin) else shiftBy ty v n.toNat

/-- A register operand of an instruction with a register-specified shift: r15 reads 4 more (R261). -/
def State.xAhead (s : State) (i : Reg) : Word :=
  if i = 15#4 then s.x i + 4#32 else s.x i

/-- The immediate operand of data processing and MSR: `ROR(zext_8(imm8), 2 x rot)` (R263, R313). -/
def rotatedImm (rot : BitVec 4) (imm8 : BitVec 8) : Word :=
  ror (imm8.setWidth 32) (2 * rot.toNat)

/-- Operand 2 and the shifter carry (R263). -/
def State.operand2 (s : State) : Operand2 → Word × Bool
  | .imm rot imm8 =>
    let v := rotatedImm rot imm8
    (v, if rot = 0#4 then s.flagC else v.getLsbD 31)
  | .shiftImm rm ty amount => shiftImm ty (s.x rm) amount s.flagC
  | .shiftReg rm ty rs => shiftReg ty (s.xAhead rm) ((s.xAhead rs).setWidth 8) s.flagC

/-- The first operand beside an operand 2 (R261, R263). -/
def State.operand1 (s : State) (rn : Reg) : Operand2 → Word
  | .shiftReg _ _ _ => s.xAhead rn
  | .imm _ _ => s.x rn
  | .shiftImm _ _ _ => s.x rn

/-- The cycle of a register-specified shift (R281). -/
def operand2Cycles : Operand2 → Nat
  | .shiftReg _ _ _ => 1
  | .imm _ _ => 0
  | .shiftImm _ _ _ => 0

/-- The offset of a single data transfer (R320, R322). -/
def State.offset12 (s : State) : Offset12 → Word
  | .imm imm12 => imm12.setWidth 32
  | .reg rm ty amount => (shiftImm ty (s.x rm) amount s.flagC).1

/-- The offset of a halfword or signed transfer (R330). -/
def State.offset8 (s : State) : Offset8 → Word
  | .imm imm8 => imm8.setWidth 32
  | .reg rm => s.x rm

/-- `idx`: the base with the offset added or subtracted (R320). -/
def indexed (ix : Indexing) (base off : Word) : Word :=
  if ix.up then base + off else base - off

/-- The transfer address: before or after indexing (R320). -/
def transferAddress (ix : Indexing) (base off : Word) : Word :=
  if ix.pre then indexed ix base off else base

/-- The base is written back: always when post-indexed (R320). -/
def writesBack (ix : Indexing) : Bool := !ix.pre || ix.wback

/-- The write-back of `idx` (R320). -/
def State.writeBack (s : State) (ix : Indexing) (rn : Reg) (idx : Word) : State :=
  if writesBack ix then s.setX rn idx else s

/-- The data of a store: r15 stores A + 12 (R321). -/
def State.storeData (s : State) (rd : Reg) : Word := s.xAhead rd

/-- The numbers of the set bits of a register list, ascending, below `k`. -/
def regList (list : BitVec 16) : Nat → List Reg
  | 0 => []
  | k + 1 => regList list k ++ (if list.getLsbD k then [BitVec.ofNat 4 k] else [])

/-- The registers of a list, ascending (R336). -/
def listed (list : BitVec 16) : List Reg := regList list 16

/-- `n`, the number of registers of a list (R336). -/
def listCount (list : BitVec 16) : Nat := (listed list).length

/-- `4n` as a word. -/
def listSpan (list : BitVec 16) : Word := BitVec.ofNat 32 (4 * listCount list)

/-- `start` of a block transfer (R336). -/
def blockStart (m : BlockMode) (base : Word) (list : BitVec 16) : Word :=
  match m.up, m.pre with
  | true, false => base
  | true, true => base + 4#32
  | false, false => base - listSpan list + 4#32
  | false, true => base - listSpan list

/-- `final` of a block transfer (R336). -/
def blockFinal (m : BlockMode) (base : Word) (list : BitVec 16) : Word :=
  if m.up then base + listSpan list else base - listSpan list

/-- All bits of `v` from `k` up are equal. -/
def uniformFrom (v : Word) (k : Nat) : Bool :=
  v >>> k == 0#32 || (v >>> k) == (0xFFFFFFFF#32 >>> k)

/-- The multiplier term `m` (R306). -/
def multiplierCycles (v : Word) : Nat :=
  if uniformFrom v 8 then 1
  else if uniformFrom v 16 then 2
  else if uniformFrom v 24 then 3
  else 4

end Sys2Proof.Machine
end

