-- ==== Sys2Proof/Machine/ArmBlock.lean ====
section
/-! DEFINITION. Block transfers (spec `42_arm_load_store.md` R336-R344); Thumb formats 14 and 15 share the loops. -/

namespace Sys2Proof.Machine

/-- The load loop of R336 over registers other than r15, from an address; `user` loads the USER bank (R340). -/
def State.loadRegs (s : State) (user : Bool) : List Reg → Word → State
  | [], _ => s
  | i :: rest, a =>
    let v := s.readRaw a .word
    let t := s.afterRead a .word
    (if user then t.setXu i v else t.setX i v).loadRegs user rest (a + 4#32)

/-- The data that STM stores for register `i` (R341). -/
def State.blockData (s : State) (user : Bool) (i : Reg) : Word :=
  if i = 15#4 then s.x i + 4#32 else if user then s.xu i else s.x i

/-- A pending base write-back (R337, R342). -/
def State.writeBase (s : State) : Option (Reg × Word) → State
  | some (rn, v) => s.setX rn v
  | none => s

/-- The store loop of R337 from an address; `wb` is the write-back due after the first store. -/
def State.storeRegs (s : State) (user : Bool) (wb : Option (Reg × Word)) : List Reg → Word → State
  | [], _ => s
  | i :: rest, a =>
    ((s.memWrite a .word (s.blockData user i)).writeBase wb).storeRegs user none rest (a + 4#32)

/-- The registers of a list below r15, ascending. -/
def listedLow (list : BitVec 16) : List Reg := regList list 15

/-- LDM before r15 is loaded (R336): write-back first, then the registers below r15. -/
def State.ldmLow (s : State) (m : BlockMode) (rn : Reg) (list : BitVec 16) : State :=
  (if m.wback then s.setX rn (blockFinal m (s.x rn) list) else s).loadRegs (m.psr && !list.getLsbD 15)
    (listedLow list) (blockStart m (s.x rn) list)

/-- The address r15 is loaded from: the highest (R336). -/
def State.ldmPcAddress (s : State) (m : BlockMode) (rn : Reg) (list : BitVec 16) : Word :=
  blockStart m (s.x rn) list + BitVec.ofNat 32 (4 * (listedLow list).length)

/-- LDM with r15 in the list (R336, R340). -/
def State.ldmPc (s : State) (m : BlockMode) (rn : Reg) (list : BitVec 16) : State :=
  let a := s.ldmPcAddress m rn list
  let t := s.ldmLow m rn list
  let v := t.readRaw a .word
  if m.psr then (t.afterRead a .word).restoreThenPc v else (t.afterRead a .word).writePc v

/-- LDM (R336, R338-R340, R343, R344). The mode that S with r15 installs is checked first (R27; log entry 17). -/
def execArmLdm (c : Cond) (m : BlockMode) (rn : Reg) (list : BitVec 16) (s : State) : Result :=
  conditional c s fun s =>
    if list.getLsbD 15 then
      if m.psr && !s.restoreLegal then fatalExecute s
      else .next ((s.ldmPc m rn list).tally (listCount list + 4))
    else .next ((s.ldmLow m rn list).tally (listCount list + 2))

/-- STM's stores and write-back (R337); an empty list only rewrites the base (R338; log entry 21). -/
def State.stm (s : State) (m : BlockMode) (rn : Reg) (list : BitVec 16) : State :=
  let wb := if m.wback then some (rn, blockFinal m (s.x rn) list) else none
  if list = 0#16 then s.writeBase wb
  else s.storeRegs m.psr wb (listed list) (blockStart m (s.x rn) list)

/-- STM (R337-R339, R341-R344). -/
def execArmStm (c : Cond) (m : BlockMode) (rn : Reg) (list : BitVec 16) (s : State) : Result :=
  conditional c s fun s => finish ((s.stm m rn list).tally (listCount list + 1))

end Sys2Proof.Machine
end

