-- ==== Sys2Proof/Machine/ArmBranch.lean ====
section
/-! DEFINITION. ARM branches, software interrupt, undefined and coprocessor words (spec `43_arm_branch_system.md` R360-R366). -/

namespace Sys2Proof.Machine

/-- `sext_26(w[23:0] ++ 0b00)` (R360). -/
def branchOffset24 (off : BitVec 24) : Word :=
  (off ++ 0#2).signExtend 32

/-- `T <- v[0]; pc <- v` aligned for the new T (R362). -/
def State.branchExchange (s : State) (v : Word) : State :=
  (s.setCpsr (setBit s.cpu.cpsr 5 (v.getLsbD 0))).writePc v

/-- B (R360). -/
def execArmB (c : Cond) (off : BitVec 24) (s : State) : Result :=
  conditional c s fun s => .next ((s.writePc (s.x 15#4 + branchOffset24 off)).tally 3)

/-- BL (R361). -/
def execArmBl (c : Cond) (off : BitVec 24) (s : State) : Result :=
  conditional c s fun s =>
    .next (((s.setX 14#4 (s.x 15#4 - 4#32)).writePc (s.x 15#4 + branchOffset24 off)).tally 3)

/-- BX (R362). -/
def execArmBx (c : Cond) (rn : Reg) (s : State) : Result :=
  conditional c s fun s => .next ((s.branchExchange (s.x rn)).tally 3)

/-- SWI (R363): takes the software interrupt. -/
def execArmSwi (c : Cond) (s : State) : Result :=
  conditional c s fun s => .next ((s.enter .softwareInterrupt).tally 3)

/-- The Undefined class (R365): takes the undefined-instruction exception. -/
def execArmUnd (c : Cond) (s : State) : Result :=
  conditional c s fun s => .next ((s.enter .undefined).tally 3)

/-- Coprocessor data transfer space (R366): `fatal DecodeError(w, 0)`. -/
def execArmNoClassCoprocTransfer (c : Cond) (s : State) : Result :=
  conditional c s fatalDecode

/-- Coprocessor operation and register transfer space (R366): `fatal DecodeError(w, 0)`. -/
def execArmNoClassCoprocOperation (c : Cond) (s : State) : Result :=
  conditional c s fatalDecode

end Sys2Proof.Machine
end

