-- ==== Sys2Proof/Machine/ArmDataProcessing.lean ====
section
/-! DEFINITION. ARM data processing (spec `40_arm_data_processing.md` R262-R282). -/

namespace Sys2Proof.Machine

/-- An operation of R264-R280: both operands and what else it sees. -/
abbrev AluOp := Word → Word → AluIn → AluOut

/-- The result of an operation on the instruction's operands, read in the state before it (R263, R282). -/
def State.aluResult (s : State) (op : AluOp) (rn : Reg) (o : Operand2) : AluOut :=
  op (s.operand1 rn o) (s.operand2 o).1 ⟨(s.operand2 o).2, s.flagC, s.flagV⟩

/-- N, Z, C, V from a result when the S bit is 1 (R262). -/
def State.setFlagsIf (s : State) (sbit : Bool) (r : AluOut) : State :=
  if sbit then s.setResultFlags r.value r.carry r.overflow else s

/-- The skeleton of R263 for an instruction that writes Rd; S with Rd = 15 returns from an exception (R276). -/
def dataProc (op : AluOp) (c : Cond) (sbit : Bool) (rn rd : Reg) (o : Operand2) (s : State) : Result :=
  conditional c s fun s =>
    let r := s.aluResult op rn o
    if rd = 15#4 then
      if sbit then
        if s.restoreLegal then .next ((s.restoreThenPc r.value).tally (3 + operand2Cycles o))
        else fatalExecute s
      else .next ((s.writePc r.value).tally (3 + operand2Cycles o))
    else .next (((s.setX rd r.value).setFlagsIf sbit r).tally (1 + operand2Cycles o))

/-- The skeleton of R263 for TST, TEQ, CMP and CMN: flags always, no register. -/
def dataTest (op : AluOp) (c : Cond) (rn : Reg) (o : Operand2) (s : State) : Result :=
  conditional c s fun s =>
    .next ((s.setFlagsIf true (s.aluResult op rn o)).tally (1 + operand2Cycles o))

/-- AND (R264). -/
def execArmAnd (c : Cond) (sbit : Bool) (rn rd : Reg) (o : Operand2) (s : State) : Result :=
  dataProc aluAnd c sbit rn rd o s

/-- EOR (R265). -/
def execArmEor (c : Cond) (sbit : Bool) (rn rd : Reg) (o : Operand2) (s : State) : Result :=
  dataProc aluEor c sbit rn rd o s

/-- SUB (R266). -/
def execArmSub (c : Cond) (sbit : Bool) (rn rd : Reg) (o : Operand2) (s : State) : Result :=
  dataProc aluSub c sbit rn rd o s

/-- RSB (R267). -/
def execArmRsb (c : Cond) (sbit : Bool) (rn rd : Reg) (o : Operand2) (s : State) : Result :=
  dataProc aluRsb c sbit rn rd o s

/-- ADD (R268). -/
def execArmAdd (c : Cond) (sbit : Bool) (rn rd : Reg) (o : Operand2) (s : State) : Result :=
  dataProc aluAdd c sbit rn rd o s

/-- ADC (R269). -/
def execArmAdc (c : Cond) (sbit : Bool) (rn rd : Reg) (o : Operand2) (s : State) : Result :=
  dataProc aluAdc c sbit rn rd o s

/-- SBC (R270). -/
def execArmSbc (c : Cond) (sbit : Bool) (rn rd : Reg) (o : Operand2) (s : State) : Result :=
  dataProc aluSbc c sbit rn rd o s

/-- RSC (R271). -/
def execArmRsc (c : Cond) (sbit : Bool) (rn rd : Reg) (o : Operand2) (s : State) : Result :=
  dataProc aluRsc c sbit rn rd o s

/-- TST (R272). -/
def execArmTst (c : Cond) (rn : Reg) (o : Operand2) (s : State) : Result :=
  dataTest aluAnd c rn o s

/-- TEQ (R273). -/
def execArmTeq (c : Cond) (rn : Reg) (o : Operand2) (s : State) : Result :=
  dataTest aluEor c rn o s

/-- CMP (R274). -/
def execArmCmp (c : Cond) (rn : Reg) (o : Operand2) (s : State) : Result :=
  dataTest aluSub c rn o s

/-- CMN (R275). -/
def execArmCmn (c : Cond) (rn : Reg) (o : Operand2) (s : State) : Result :=
  dataTest aluAdd c rn o s

/-- ORR (R277). -/
def execArmOrr (c : Cond) (sbit : Bool) (rn rd : Reg) (o : Operand2) (s : State) : Result :=
  dataProc aluOrr c sbit rn rd o s

/-- MOV (R278); Rn is ignored. -/
def execArmMov (c : Cond) (sbit : Bool) (rd : Reg) (o : Operand2) (s : State) : Result :=
  dataProc aluMov c sbit 0#4 rd o s

/-- BIC (R279). -/
def execArmBic (c : Cond) (sbit : Bool) (rn rd : Reg) (o : Operand2) (s : State) : Result :=
  dataProc aluBic c sbit rn rd o s

/-- MVN (R280); Rn is ignored. -/
def execArmMvn (c : Cond) (sbit : Bool) (rd : Reg) (o : Operand2) (s : State) : Result :=
  dataProc aluMvn c sbit 0#4 rd o s

end Sys2Proof.Machine
end

