-- ==== Sys2Proof/Machine/ArmLoadStore.lean ====
section
/-! DEFINITION. ARM single, halfword and signed transfers and the swap (spec `42_arm_load_store.md` R320-R335, R345, R346). -/

namespace Sys2Proof.Machine

/-- The kinds of single load (R323, R324, R332-R334). -/
inductive LoadKind where
  | word
  | byte
  | half
  | signedByte
  | signedHalf
  deriving DecidableEq, Repr

/-- The access width of a load; a signed halfword at an odd address reads a byte (R334). -/
def LoadKind.width (k : LoadKind) (addr : Word) : Width :=
  match k with
  | .word => .word
  | .byte => .byte
  | .half => .half
  | .signedByte => .byte
  | .signedHalf => if addr.getLsbD 0 then .byte else .half

/-- The value of a load (R323, R324, R332-R334). -/
def State.load (s : State) (k : LoadKind) (addr : Word) : Word :=
  match k with
  | .word => s.memRead addr .word
  | .byte => s.memRead addr .byte
  | .half => s.memRead addr .half
  | .signedByte => sext 8 (s.memRead addr .byte)
  | .signedHalf => if addr.getLsbD 0 then sext 8 (s.memRead addr .byte) else sext 16 (s.readRaw addr .half)

/-- The state after a load's access (`20_memory.md` R94). -/
def State.afterLoad (s : State) (k : LoadKind) (addr : Word) : State :=
  s.afterRead addr (k.width addr)

/-- The address of a single transfer in the state before it (R320, R330). -/
def State.transferAt (s : State) (ix : Indexing) (rn : Reg) (off : Word) : Word :=
  transferAddress ix (s.x rn) off

/-- The effect of a load: access, write-back, then Rd, so that a loaded base keeps the loaded value (R320). -/
def State.loadInto (s : State) (k : LoadKind) (ix : Indexing) (rn rd : Reg) (off : Word) : State :=
  ((s.afterLoad k (s.transferAt ix rn off)).writeBack ix rn (indexed ix (s.x rn) off)).setX rd
    (s.load k (s.transferAt ix rn off))

/-- The skeleton of R320 and R330 for a load; cycles 3, plus 2 when Rd = 15 (R329). -/
def singleLoad (k : LoadKind) (c : Cond) (ix : Indexing) (rn rd : Reg) (off : Word) (s : State) : Result :=
  conditional c s fun s =>
    .next ((s.loadInto k ix rn rd off).tally (if rd = 15#4 then 5 else 3))

/-- The effect of a store: the data are read before the write-back (R320). -/
def State.storeFrom (s : State) (w : Width) (ix : Indexing) (rn rd : Reg) (off : Word) : State :=
  (s.memWrite (s.transferAt ix rn off) w (s.storeData rd)).writeBack ix rn (indexed ix (s.x rn) off)

/-- The skeleton of R320 and R330 for a store; cycles 2 (R329). -/
def singleStore (w : Width) (c : Cond) (ix : Indexing) (rn rd : Reg) (off : Word) (s : State) : Result :=
  conditional c s fun s => finish ((s.storeFrom w ix rn rd off).tally 2)

/-- LDR (R323). -/
def execArmLdr (c : Cond) (ix : Indexing) (rn rd : Reg) (off : Offset12) (s : State) : Result :=
  singleLoad .word c ix rn rd (s.offset12 off) s

/-- LDRB (R324). -/
def execArmLdrb (c : Cond) (ix : Indexing) (rn rd : Reg) (off : Offset12) (s : State) : Result :=
  singleLoad .byte c ix rn rd (s.offset12 off) s

/-- STR (R325). -/
def execArmStr (c : Cond) (ix : Indexing) (rn rd : Reg) (off : Offset12) (s : State) : Result :=
  singleStore .word c ix rn rd (s.offset12 off) s

/-- STRB (R326). -/
def execArmStrb (c : Cond) (ix : Indexing) (rn rd : Reg) (off : Offset12) (s : State) : Result :=
  singleStore .byte c ix rn rd (s.offset12 off) s

/-- STRH (R331). -/
def execArmStrh (c : Cond) (ix : Indexing) (rn rd : Reg) (off : Offset8) (s : State) : Result :=
  singleStore .half c ix rn rd (s.offset8 off) s

/-- LDRH (R332). -/
def execArmLdrh (c : Cond) (ix : Indexing) (rn rd : Reg) (off : Offset8) (s : State) : Result :=
  singleLoad .half c ix rn rd (s.offset8 off) s

/-- LDRSB (R333). -/
def execArmLdrsb (c : Cond) (ix : Indexing) (rn rd : Reg) (off : Offset8) (s : State) : Result :=
  singleLoad .signedByte c ix rn rd (s.offset8 off) s

/-- LDRSH (R334). -/
def execArmLdrsh (c : Cond) (ix : Indexing) (rn rd : Reg) (off : Offset8) (s : State) : Result :=
  singleLoad .signedHalf c ix rn rd (s.offset8 off) s

/-- The LDRD position (R335): `fatal Unimplemented(w)`. -/
def execArmLdrdPosition (c : Cond) (s : State) : Result :=
  conditional c s fatalUnimplemented

/-- The STRD position (R335): `fatal Unimplemented(w)`. -/
def execArmStrdPosition (c : Cond) (s : State) : Result :=
  conditional c s fatalUnimplemented

/-- SH = 00 (R335, `30_encoding.md` R233): `fatal ExecuteError(w, 0)`. -/
def execArmReservedSh00 (c : Cond) (s : State) : Result :=
  conditional c s fatalExecute

/-- The effect of a swap: read, write, then Rd (R345, R346). -/
def State.swap (s : State) (w : Width) (rn rd rm : Reg) : State :=
  ((s.afterRead (s.x rn) w).memWrite (s.x rn) w (s.x rm)).setX rd (s.memRead (s.x rn) w)

/-- SWP (R345): fatal unless the parameter `SWP_IMPLEMENTED` is true (log entry 10). -/
def execArmSwp (c : Cond) (rn rd rm : Reg) (s : State) : Result :=
  conditional c s fun s =>
    if s.bus.params.swpImplemented then finish ((s.swap .word rn rd rm).tally 4) else fatalUnimplemented s

/-- SWPB (R346): fatal unless the parameter `SWP_IMPLEMENTED` is true (log entry 10). -/
def execArmSwpb (c : Cond) (rn rd rm : Reg) (s : State) : Result :=
  conditional c s fun s =>
    if s.bus.params.swpImplemented then finish ((s.swap .byte rn rd rm).tally 4) else fatalUnimplemented s

end Sys2Proof.Machine
end

