-- ==== Sys2Proof/Machine/ArmMultiply.lean ====
section
/-! DEFINITION. ARM multiplies (spec `41_arm_multiply_psr.md` R300-R306, R315). -/

namespace Sys2Proof.Machine

/-- The result of a short multiply written to Rd; with S, N and Z from it (R300, R301, R315). -/
def State.mulWrite (s : State) (sbit : Bool) (rd : Reg) (r : Word) : State :=
  let t := s.setX rd r
  if sbit then t.setNZ r else t

/-- The result of a long multiply: RdLo first, then RdHi; with S, N and Z of the 64 bits (R302, R315). -/
def State.mulLongWrite (s : State) (sbit : Bool) (rdHi rdLo : Reg) (p : BitVec 64) : State :=
  let t := (s.setX rdLo (p.extractLsb' 0 32)).setX rdHi (p.extractLsb' 32 32)
  if sbit then t.setNZCV (p.getLsbD 63) (p == 0#64) t.flagC t.flagV else t

/-- `x[RdHi] ++ x[RdLo]` (R303, R305). -/
def State.accumulator (s : State) (rdHi rdLo : Reg) : BitVec 64 :=
  s.x rdHi ++ s.x rdLo

/-- The unsigned 64-bit product (R302). -/
def umul64 (a b : Word) : BitVec 64 := a.setWidth 64 * b.setWidth 64

/-- The signed 64-bit product (R304). -/
def smul64 (a b : Word) : BitVec 64 := a.signExtend 64 * b.signExtend 64

/-- MUL (R300); cycles 1 + m (R306). -/
def execArmMul (c : Cond) (sbit : Bool) (rd rs rm : Reg) (s : State) : Result :=
  conditional c s fun s =>
    .next ((s.mulWrite sbit rd (s.x rm * s.x rs)).tally (1 + multiplierCycles (s.x rs)))

/-- MLA (R301); cycles 2 + m. -/
def execArmMla (c : Cond) (sbit : Bool) (rd rn rs rm : Reg) (s : State) : Result :=
  conditional c s fun s =>
    .next ((s.mulWrite sbit rd (s.x rm * s.x rs + s.x rn)).tally (2 + multiplierCycles (s.x rs)))

/-- UMULL (R302); cycles 2 + m. -/
def execArmUmull (c : Cond) (sbit : Bool) (rdHi rdLo rs rm : Reg) (s : State) : Result :=
  conditional c s fun s =>
    .next ((s.mulLongWrite sbit rdHi rdLo (umul64 (s.x rm) (s.x rs))).tally (2 + multiplierCycles (s.x rs)))

/-- UMLAL (R303); cycles 3 + m. -/
def execArmUmlal (c : Cond) (sbit : Bool) (rdHi rdLo rs rm : Reg) (s : State) : Result :=
  conditional c s fun s =>
    .next ((s.mulLongWrite sbit rdHi rdLo (umul64 (s.x rm) (s.x rs) + s.accumulator rdHi rdLo)).tally
      (3 + multiplierCycles (s.x rs)))

/-- SMULL (R304); cycles 2 + m. -/
def execArmSmull (c : Cond) (sbit : Bool) (rdHi rdLo rs rm : Reg) (s : State) : Result :=
  conditional c s fun s =>
    .next ((s.mulLongWrite sbit rdHi rdLo (smul64 (s.x rm) (s.x rs))).tally (2 + multiplierCycles (s.x rs)))

/-- SMLAL (R305); cycles 3 + m. -/
def execArmSmlal (c : Cond) (sbit : Bool) (rdHi rdLo rs rm : Reg) (s : State) : Result :=
  conditional c s fun s =>
    .next ((s.mulLongWrite sbit rdHi rdLo (smul64 (s.x rm) (s.x rs) + s.accumulator rdHi rdLo)).tally
      (3 + multiplierCycles (s.x rs)))

end Sys2Proof.Machine
end

