-- ==== Sys2Proof/Machine/ArmPsr.lean ====
section
/-! DEFINITION. ARM PSR transfer (spec `41_arm_multiply_psr.md` R308-R314). -/

namespace Sys2Proof.Machine

/-- The byte mask of the field bits fm (R312). -/
def fieldMask (fm : BitVec 4) : Word :=
  (if fm.getLsbD 3 then 0xFF000000#32 else 0#32) ||| (if fm.getLsbD 2 then 0x00FF0000#32 else 0#32) |||
    (if fm.getLsbD 1 then 0x0000FF00#32 else 0#32) ||| (if fm.getLsbD 0 then 0x000000FF#32 else 0#32)

/-- The bits of CPSR that MSR writes: USER mode only the flags byte, never T (R311, R312). -/
def State.cpsrMask (s : State) (fm : BitVec 4) : Word :=
  (if s.mode = .usr then fieldMask fm &&& 0xFF000000#32 else fieldMask fm) &&& 0xFFFFFFDF#32

/-- `MSR(P, fm, operand)` (R310, R312). -/
def moveToPsr (p : Bool) (fm : BitVec 4) (operand : Word) (s : State) : Result :=
  if p then
    match s.cpu.spsr.get s.mode with
    | some old => .next ({ s with cpu := { s.cpu with spsr := s.cpu.spsr.set s.mode (mergeBits (fieldMask fm) old operand) } }.tally 1)
    | none => fatalExecute s
  else
    let new := mergeBits (s.cpsrMask fm) s.cpu.cpsr operand
    if legalMode new then .next ((s.setCpsr new).tally 1) else fatalExecute s

/-- MRS (R308, R309). -/
def execArmMrs (c : Cond) (p : Bool) (rd : Reg) (s : State) : Result :=
  conditional c s fun s =>
    if p then
      match s.cpu.spsr.get s.mode with
      | some v => .next ((s.setX rd v).tally 1)
      | none => fatalExecute s
    else .next ((s.setX rd s.cpu.cpsr).tally 1)

/-- MSR, register operand (R312). -/
def execArmMsrReg (c : Cond) (p : Bool) (fm : BitVec 4) (rm : Reg) (s : State) : Result :=
  conditional c s fun s => moveToPsr p fm (s.x rm) s

/-- MSR, immediate operand (R313). -/
def execArmMsrImm (c : Cond) (p : Bool) (fm : BitVec 4) (rot : BitVec 4) (imm8 : BitVec 8) (s : State) : Result :=
  conditional c s fun s => moveToPsr p fm (rotatedImm rot imm8) s

/-- The reserved PSR-transfer words (R314): `fatal ExecuteError(w, 0)`. -/
def execArmReservedPsr (c : Cond) (s : State) : Result :=
  conditional c s fatalExecute

end Sys2Proof.Machine
end

