-- ==== Sys2Proof/Machine/ThumbAlu.lean ====
section
/-! DEFINITION. Thumb formats 1-5, 12 and 13 (spec `44_thumb_alu.md` R380-R423). -/

namespace Sys2Proof.Machine

/-- A result written to Rd with N, Z, C, V (R411). -/
def thumbWrite (rd : LoReg) (r : AluOut) (k : Nat) (s : State) : Result :=
  .next (((s.setX (lo rd) r.value).setResultFlags r.value r.carry r.overflow).tally k)

/-- N, Z, C, V of a result that is not written (R411). -/
def thumbTest (r : AluOut) (s : State) : Result :=
  .next ((s.setResultFlags r.value r.carry r.overflow).tally 1)

/-- The result of an operation with no shifter: its shifter carry is CPSR.C (R411). -/
def State.thumbAlu (s : State) (op : AluOp) (a b : Word) : AluOut :=
  op a b ⟨s.flagC, s.flagC, s.flagV⟩

/-- A shift result: C from the shifter, V unchanged (R411). -/
def State.shiftOut (s : State) (p : Word × Bool) : AluOut :=
  ⟨p.1, p.2, s.flagV⟩

/-- LSL Rd, Rs, #imm5 (R380). -/
def execThumbLslImm (imm5 : BitVec 5) (rs rd : LoReg) (s : State) : Result :=
  thumbWrite rd (s.shiftOut (shiftImm .lsl (s.x (lo rs)) imm5 s.flagC)) 1 s

/-- LSR Rd, Rs, #imm5 (R381). -/
def execThumbLsrImm (imm5 : BitVec 5) (rs rd : LoReg) (s : State) : Result :=
  thumbWrite rd (s.shiftOut (shiftImm .lsr (s.x (lo rs)) imm5 s.flagC)) 1 s

/-- ASR Rd, Rs, #imm5 (R382). -/
def execThumbAsrImm (imm5 : BitVec 5) (rs rd : LoReg) (s : State) : Result :=
  thumbWrite rd (s.shiftOut (shiftImm .asr (s.x (lo rs)) imm5 s.flagC)) 1 s

/-- ADD Rd, Rs, Rn (R383). -/
def execThumbAddReg (rn rs rd : LoReg) (s : State) : Result :=
  thumbWrite rd (s.thumbAlu aluAdd (s.x (lo rs)) (s.x (lo rn))) 1 s

/-- SUB Rd, Rs, Rn (R384). -/
def execThumbSubReg (rn rs rd : LoReg) (s : State) : Result :=
  thumbWrite rd (s.thumbAlu aluSub (s.x (lo rs)) (s.x (lo rn))) 1 s

/-- ADD Rd, Rs, #imm3 (R385). -/
def execThumbAddImm3 (imm3 : BitVec 3) (rs rd : LoReg) (s : State) : Result :=
  thumbWrite rd (s.thumbAlu aluAdd (s.x (lo rs)) (imm3.setWidth 32)) 1 s

/-- SUB Rd, Rs, #imm3 (R386). -/
def execThumbSubImm3 (imm3 : BitVec 3) (rs rd : LoReg) (s : State) : Result :=
  thumbWrite rd (s.thumbAlu aluSub (s.x (lo rs)) (imm3.setWidth 32)) 1 s

/-- MOV Rd, #imm8 (R387). -/
def execThumbMovImm (rd : LoReg) (imm8 : BitVec 8) (s : State) : Result :=
  thumbWrite rd (s.thumbAlu aluMov 0#32 (imm8.setWidth 32)) 1 s

/-- CMP Rd, #imm8 (R388). -/
def execThumbCmpImm (rd : LoReg) (imm8 : BitVec 8) (s : State) : Result :=
  thumbTest (s.thumbAlu aluSub (s.x (lo rd)) (imm8.setWidth 32)) s

/-- ADD Rd, #imm8 (R389). -/
def execThumbAddImm8 (rd : LoReg) (imm8 : BitVec 8) (s : State) : Result :=
  thumbWrite rd (s.thumbAlu aluAdd (s.x (lo rd)) (imm8.setWidth 32)) 1 s

/-- SUB Rd, #imm8 (R390). -/
def execThumbSubImm8 (rd : LoReg) (imm8 : BitVec 8) (s : State) : Result :=
  thumbWrite rd (s.thumbAlu aluSub (s.x (lo rd)) (imm8.setWidth 32)) 1 s

/-- AND Rd, Rs (R391). -/
def execThumbAnd (rs rd : LoReg) (s : State) : Result :=
  thumbWrite rd (s.thumbAlu aluAnd (s.x (lo rd)) (s.x (lo rs))) 1 s

/-- EOR Rd, Rs (R392). -/
def execThumbEor (rs rd : LoReg) (s : State) : Result :=
  thumbWrite rd (s.thumbAlu aluEor (s.x (lo rd)) (s.x (lo rs))) 1 s

/-- LSL Rd, Rs (R393). -/
def execThumbLslReg (rs rd : LoReg) (s : State) : Result :=
  thumbWrite rd (s.shiftOut (shiftReg .lsl (s.x (lo rd)) ((s.x (lo rs)).setWidth 8) s.flagC)) 2 s

/-- LSR Rd, Rs (R394). -/
def execThumbLsrReg (rs rd : LoReg) (s : State) : Result :=
  thumbWrite rd (s.shiftOut (shiftReg .lsr (s.x (lo rd)) ((s.x (lo rs)).setWidth 8) s.flagC)) 2 s

/-- ASR Rd, Rs (R395). -/
def execThumbAsrReg (rs rd : LoReg) (s : State) : Result :=
  thumbWrite rd (s.shiftOut (shiftReg .asr (s.x (lo rd)) ((s.x (lo rs)).setWidth 8) s.flagC)) 2 s

/-- ROR Rd, Rs (R398). -/
def execThumbRor (rs rd : LoReg) (s : State) : Result :=
  thumbWrite rd (s.shiftOut (shiftReg .ror (s.x (lo rd)) ((s.x (lo rs)).setWidth 8) s.flagC)) 2 s

/-- ADC Rd, Rs (R396). -/
def execThumbAdc (rs rd : LoReg) (s : State) : Result :=
  thumbWrite rd (s.thumbAlu aluAdc (s.x (lo rd)) (s.x (lo rs))) 1 s

/-- SBC Rd, Rs (R397). -/
def execThumbSbc (rs rd : LoReg) (s : State) : Result :=
  thumbWrite rd (s.thumbAlu aluSbc (s.x (lo rd)) (s.x (lo rs))) 1 s

/-- TST Rd, Rs (R399). -/
def execThumbTst (rs rd : LoReg) (s : State) : Result :=
  thumbTest (s.thumbAlu aluAnd (s.x (lo rd)) (s.x (lo rs))) s

/-- NEG Rd, Rs (R400). -/
def execThumbNeg (rs rd : LoReg) (s : State) : Result :=
  thumbWrite rd (s.thumbAlu aluSub 0#32 (s.x (lo rs))) 1 s

/-- CMP Rd, Rs (R401). -/
def execThumbCmp (rs rd : LoReg) (s : State) : Result :=
  thumbTest (s.thumbAlu aluSub (s.x (lo rd)) (s.x (lo rs))) s

/-- CMN Rd, Rs (R402). -/
def execThumbCmn (rs rd : LoReg) (s : State) : Result :=
  thumbTest (s.thumbAlu aluAdd (s.x (lo rd)) (s.x (lo rs))) s

/-- ORR Rd, Rs (R403). -/
def execThumbOrr (rs rd : LoReg) (s : State) : Result :=
  thumbWrite rd (s.thumbAlu aluOrr (s.x (lo rd)) (s.x (lo rs))) 1 s

/-- The product as a logical-class result: C and V unchanged (R404). -/
def aluMul (a b : Word) (i : AluIn) : AluOut := logical (a * b) i

/-- MUL Rd, Rs (R404); the multiplier term is that of the old Rd. -/
def execThumbMul (rs rd : LoReg) (s : State) : Result :=
  thumbWrite rd (s.thumbAlu aluMul (s.x (lo rd)) (s.x (lo rs))) (1 + multiplierCycles (s.x (lo rd))) s

/-- BIC Rd, Rs (R405). -/
def execThumbBic (rs rd : LoReg) (s : State) : Result :=
  thumbWrite rd (s.thumbAlu aluBic (s.x (lo rd)) (s.x (lo rs))) 1 s

/-- MVN Rd, Rs (R406). -/
def execThumbMvn (rs rd : LoReg) (s : State) : Result :=
  thumbWrite rd (s.thumbAlu aluMvn 0#32 (s.x (lo rs))) 1 s

/-- The cycles of a format 5 ADD or MOV (R412). -/
def hiCycles (rd : Reg) : Nat := if rd = 15#4 then 3 else 1

/-- ADD Rd, Rs (hi) (R407). -/
def execThumbAddHi (rd rs : Reg) (s : State) : Result :=
  .next ((s.setX rd (s.x rd + s.x rs)).tally (hiCycles rd))

/-- CMP Rd, Rs (hi) (R408). -/
def execThumbCmpHi (rd rs : Reg) (s : State) : Result :=
  thumbTest (s.thumbAlu aluSub (s.x rd) (s.x rs)) s

/-- MOV Rd, Rs (hi) (R409). -/
def execThumbMovHi (rd rs : Reg) (s : State) : Result :=
  .next ((s.setX rd (s.x rs)).tally (hiCycles rd))

/-- BX Rs (R410). -/
def execThumbBx (rs : Reg) (s : State) : Result :=
  .next ((s.branchExchange (s.x rs)).tally 3)

/-- `imm x 4` (R420-R423). -/
def times4 {n : Nat} (imm : BitVec n) : Word := imm.setWidth 32 <<< 2

/-- `x[15] AND NOT 2` (R420, R430). -/
def State.pcBase (s : State) : Word := s.x 15#4 &&& 0xFFFFFFFD#32

/-- ADD Rd, PC, #imm (R420). -/
def execThumbAddRdPc (rd : LoReg) (imm8 : BitVec 8) (s : State) : Result :=
  .next ((s.setX (lo rd) (s.pcBase + times4 imm8)).tally 1)

/-- ADD Rd, SP, #imm (R421). -/
def execThumbAddRdSp (rd : LoReg) (imm8 : BitVec 8) (s : State) : Result :=
  .next ((s.setX (lo rd) (s.x 13#4 + times4 imm8)).tally 1)

/-- ADD SP, #imm (R422). -/
def execThumbAddSp (imm7 : BitVec 7) (s : State) : Result :=
  .next ((s.setX 13#4 (s.x 13#4 + times4 imm7)).tally 1)

/-- ADD SP, #-imm (R423). -/
def execThumbSubSp (imm7 : BitVec 7) (s : State) : Result :=
  .next ((s.setX 13#4 (s.x 13#4 - times4 imm7)).tally 1)

end Sys2Proof.Machine
end

