-- ==== Sys2Proof/Machine/ThumbBranch.lean ====
section
/-! DEFINITION. Thumb branches and software interrupt, formats 16-19 (spec `46_thumb_branch.md` R470-R476). -/

namespace Sys2Proof.Machine

/-- `sext_9(h[7:0] ++ 0b0)` (R470). -/
def branchOffset8 (off : BitVec 8) : Word := (off ++ 0#1).signExtend 32

/-- `sext_12(h[10:0] ++ 0b0)` (R472). -/
def branchOffset11 (off : BitVec 11) : Word := (off ++ 0#1).signExtend 32

/-- B<cond> (R470): 3 cycles taken, 1 not taken. -/
def execThumbBcond (c : Cond) (off : BitVec 8) (s : State) : Result :=
  conditional c s fun s => .next ((s.writePc (s.x 15#4 + branchOffset8 off)).tally 3)

/-- SWI (R471): takes the software interrupt. -/
def execThumbSwi (s : State) : Result :=
  .next ((s.enter .softwareInterrupt).tally 3)

/-- B (R472). -/
def execThumbB (off : BitVec 11) (s : State) : Result :=
  .next ((s.writePc (s.x 15#4 + branchOffset11 off)).tally 3)

/-- BL, first half (R474). -/
def execThumbBlFirst (off : BitVec 11) (s : State) : Result :=
  .next ((s.setX 14#4 (s.x 15#4 + off.signExtend 32 <<< 12)).tally 1)

/-- BL, second half (R475). -/
def execThumbBlSecond (off : BitVec 11) (s : State) : Result :=
  .next (((s.writePc (s.x 14#4 + off.setWidth 32 <<< 1)).setX 14#4 ((s.x 15#4 - 2#32) ||| 1#32)).tally 3)

/-- 0xE800..0xEFFF (R476, `30_encoding.md` R241): `fatal DecodeError(h, 1)`. -/
def execThumbNoClassE8 (s : State) : Result := fatalDecode s

/-- The rest of 0xB000..0xBFFF (R476, `30_encoding.md` R241): `fatal DecodeError(h, 1)`. -/
def execThumbNoClassB0 (s : State) : Result := fatalDecode s

end Sys2Proof.Machine
end

