-- ==== Sys2Proof/Machine/ThumbLoadStore.lean ====
section
/-! DEFINITION. Thumb loads and stores, formats 6-11, 14 and 15 (spec `45_thumb_load_store.md` R430-R455). -/

namespace Sys2Proof.Machine

/-- A load into a low register; cycles 3 (R447). -/
def thumbLoad (k : LoadKind) (rd : LoReg) (addr : Word) (s : State) : Result :=
  .next (((s.afterLoad k addr).setX (lo rd) (s.load k addr)).tally 3)

/-- A store from a low register; cycles 2 (R447). -/
def thumbStore (w : Width) (rd : LoReg) (addr : Word) (s : State) : Result :=
  finish ((s.memWrite addr w (s.x (lo rd))).tally 2)

/-- LDR Rd, [PC, #imm] (R430). -/
def execThumbLdrPc (rd : LoReg) (imm8 : BitVec 8) (s : State) : Result :=
  thumbLoad .word rd (s.pcBase + times4 imm8) s

/-- STR Rd, [Rb, Ro] (R431). -/
def execThumbStrReg (ro rb rd : LoReg) (s : State) : Result :=
  thumbStore .word rd (s.x (lo rb) + s.x (lo ro)) s

/-- STRB Rd, [Rb, Ro] (R432). -/
def execThumbStrbReg (ro rb rd : LoReg) (s : State) : Result :=
  thumbStore .byte rd (s.x (lo rb) + s.x (lo ro)) s

/-- LDR Rd, [Rb, Ro] (R433). -/
def execThumbLdrReg (ro rb rd : LoReg) (s : State) : Result :=
  thumbLoad .word rd (s.x (lo rb) + s.x (lo ro)) s

/-- LDRB Rd, [Rb, Ro] (R434). -/
def execThumbLdrbReg (ro rb rd : LoReg) (s : State) : Result :=
  thumbLoad .byte rd (s.x (lo rb) + s.x (lo ro)) s

/-- STRH Rd, [Rb, Ro] (R435). -/
def execThumbStrhReg (ro rb rd : LoReg) (s : State) : Result :=
  thumbStore .half rd (s.x (lo rb) + s.x (lo ro)) s

/-- LDRH Rd, [Rb, Ro] (R436). -/
def execThumbLdrhReg (ro rb rd : LoReg) (s : State) : Result :=
  thumbLoad .half rd (s.x (lo rb) + s.x (lo ro)) s

/-- LDSB Rd, [Rb, Ro] (R437). -/
def execThumbLdsbReg (ro rb rd : LoReg) (s : State) : Result :=
  thumbLoad .signedByte rd (s.x (lo rb) + s.x (lo ro)) s

/-- LDSH Rd, [Rb, Ro] (R438). -/
def execThumbLdshReg (ro rb rd : LoReg) (s : State) : Result :=
  thumbLoad .signedHalf rd (s.x (lo rb) + s.x (lo ro)) s

/-- STR Rd, [Rb, #imm] (R439). -/
def execThumbStrImm (imm5 : BitVec 5) (rb rd : LoReg) (s : State) : Result :=
  thumbStore .word rd (s.x (lo rb) + times4 imm5) s

/-- LDR Rd, [Rb, #imm] (R440). -/
def execThumbLdrImm (imm5 : BitVec 5) (rb rd : LoReg) (s : State) : Result :=
  thumbLoad .word rd (s.x (lo rb) + times4 imm5) s

/-- STRB Rd, [Rb, #imm] (R441). -/
def execThumbStrbImm (imm5 : BitVec 5) (rb rd : LoReg) (s : State) : Result :=
  thumbStore .byte rd (s.x (lo rb) + imm5.setWidth 32) s

/-- LDRB Rd, [Rb, #imm] (R442). -/
def execThumbLdrbImm (imm5 : BitVec 5) (rb rd : LoReg) (s : State) : Result :=
  thumbLoad .byte rd (s.x (lo rb) + imm5.setWidth 32) s

/-- STRH Rd, [Rb, #imm] (R443). -/
def execThumbStrhImm (imm5 : BitVec 5) (rb rd : LoReg) (s : State) : Result :=
  thumbStore .half rd (s.x (lo rb) + imm5.setWidth 32 <<< 1) s

/-- LDRH Rd, [Rb, #imm] (R444). -/
def execThumbLdrhImm (imm5 : BitVec 5) (rb rd : LoReg) (s : State) : Result :=
  thumbLoad .half rd (s.x (lo rb) + imm5.setWidth 32 <<< 1) s

/-- STR Rd, [SP, #imm] (R445). -/
def execThumbStrSp (rd : LoReg) (imm8 : BitVec 8) (s : State) : Result :=
  thumbStore .word rd (s.x 13#4 + times4 imm8) s

/-- LDR Rd, [SP, #imm] (R446). -/
def execThumbLdrSp (rd : LoReg) (imm8 : BitVec 8) (s : State) : Result :=
  thumbLoad .word rd (s.x 13#4 + times4 imm8) s

/-- The registers that PUSH stores, LR last (R450). -/
def pushRegs (lr : Bool) (list : BitVec 8) : List Reg :=
  regList (list.setWidth 16) 8 ++ (if lr then [14#4] else [])

/-- `sp'` of PUSH (R450). -/
def State.pushBase (s : State) (lr : Bool) (list : BitVec 8) : Word :=
  s.x 13#4 - BitVec.ofNat 32 (4 * (pushRegs lr list).length)

/-- The effect of PUSH: the stores, then r13 (R450). -/
def State.push (s : State) (lr : Bool) (list : BitVec 8) : State :=
  (s.storeRegs false none (pushRegs lr list) (s.pushBase lr list)).setX 13#4 (s.pushBase lr list)

/-- PUSH (R450, R454, R455); cycles n + 1. -/
def execThumbPush (lr : Bool) (list : BitVec 8) (s : State) : Result :=
  finish ((s.push lr list).tally ((pushRegs lr list).length + 1))

/-- The registers that POP loads below PC (R451). -/
def popRegs (list : BitVec 8) : List Reg := regList (list.setWidth 16) 8

/-- The address after the registers below PC (R451). -/
def State.popEnd (s : State) (list : BitVec 8) : Word :=
  s.x 13#4 + BitVec.ofNat 32 (4 * (popRegs list).length)

/-- The effect of POP (R451): the registers, r13, then PC. -/
def State.pop (s : State) (pc : Bool) (list : BitVec 8) : State :=
  let a := s.popEnd list
  let t := s.loadRegs false (popRegs list) (s.x 13#4)
  if pc then ((t.afterRead a .word).setX 13#4 (a + 4#32)).writePc (t.readRaw a .word)
  else t.setX 13#4 a

/-- POP (R451, R454, R455); cycles n + 2, plus 2 with PC. -/
def execThumbPop (pc : Bool) (list : BitVec 8) (s : State) : Result :=
  .next ((s.pop pc list).tally ((popRegs list).length + (if pc then 5 else 2)))

/-- `base + 4n` of format 15 (R452, R453). -/
def State.multipleEnd (s : State) (rb : LoReg) (list : BitVec 8) : Word :=
  s.x (lo rb) + BitVec.ofNat 32 (4 * (popRegs list).length)

/-- The effect of STMIA: write-back after the first store; an empty list only rewrites the base (R452, R455). -/
def State.stmia (s : State) (rb : LoReg) (list : BitVec 8) : State :=
  if list = 0#8 then s.setX (lo rb) (s.multipleEnd rb list)
  else s.storeRegs false (some (lo rb, s.multipleEnd rb list)) (popRegs list) (s.x (lo rb))

/-- STMIA (R452, R454, R455); cycles n + 1. -/
def execThumbStmia (rb : LoReg) (list : BitVec 8) (s : State) : Result :=
  finish ((s.stmia rb list).tally ((popRegs list).length + 1))

/-- The effect of LDMIA: write-back first (R453). -/
def State.ldmia (s : State) (rb : LoReg) (list : BitVec 8) : State :=
  (s.setX (lo rb) (s.multipleEnd rb list)).loadRegs false (popRegs list) (s.x (lo rb))

/-- LDMIA (R453, R454, R455); cycles n + 2. -/
def execThumbLdmia (rb : LoReg) (list : BitVec 8) (s : State) : Result :=
  .next ((s.ldmia rb list).tally ((popRegs list).length + 2))

end Sys2Proof.Machine
end

