-- ==== Sys2Proof/Machine/Dispatch.lean ====
section
/-! DEFINITION. The meaning of every instruction, one arm per constructor of `Instr`. -/

namespace Sys2Proof.Machine

/-- Phase 3 of the CPU step: the meaning of an instruction (spec `10_state.md` R34). -/
def exec (i : Instr) (s : State) : Host.Outcome State Fault Refusal :=
  match i with
  | .armBx c rn => Sys2Proof.Machine.execArmBx c rn s
  | .armLdm c m rn list => Sys2Proof.Machine.execArmLdm c m rn list s
  | .armStm c m rn list => Sys2Proof.Machine.execArmStm c m rn list s
  | .armB c offset24 => Sys2Proof.Machine.execArmB c offset24 s
  | .armBl c offset24 => Sys2Proof.Machine.execArmBl c offset24 s
  | .armSwi c _ => Sys2Proof.Machine.execArmSwi c s
  | .armUnd c => Sys2Proof.Machine.execArmUnd c s
  | .armLdr c ix rn rd off => Sys2Proof.Machine.execArmLdr c ix rn rd off s
  | .armLdrb c ix rn rd off => Sys2Proof.Machine.execArmLdrb c ix rn rd off s
  | .armStr c ix rn rd off => Sys2Proof.Machine.execArmStr c ix rn rd off s
  | .armStrb c ix rn rd off => Sys2Proof.Machine.execArmStrb c ix rn rd off s
  | .armSwp c rn rd rm => Sys2Proof.Machine.execArmSwp c rn rd rm s
  | .armSwpb c rn rd rm => Sys2Proof.Machine.execArmSwpb c rn rd rm s
  | .armMul c sbit rd rs rm => Sys2Proof.Machine.execArmMul c sbit rd rs rm s
  | .armMla c sbit rd rn rs rm => Sys2Proof.Machine.execArmMla c sbit rd rn rs rm s
  | .armUmull c sbit rdHi rdLo rs rm => Sys2Proof.Machine.execArmUmull c sbit rdHi rdLo rs rm s
  | .armUmlal c sbit rdHi rdLo rs rm => Sys2Proof.Machine.execArmUmlal c sbit rdHi rdLo rs rm s
  | .armSmull c sbit rdHi rdLo rs rm => Sys2Proof.Machine.execArmSmull c sbit rdHi rdLo rs rm s
  | .armSmlal c sbit rdHi rdLo rs rm => Sys2Proof.Machine.execArmSmlal c sbit rdHi rdLo rs rm s
  | .armStrh c ix rn rd off => Sys2Proof.Machine.execArmStrh c ix rn rd off s
  | .armLdrh c ix rn rd off => Sys2Proof.Machine.execArmLdrh c ix rn rd off s
  | .armLdrsb c ix rn rd off => Sys2Proof.Machine.execArmLdrsb c ix rn rd off s
  | .armLdrsh c ix rn rd off => Sys2Proof.Machine.execArmLdrsh c ix rn rd off s
  | .armLdrdPosition c _ _ _ _ => Sys2Proof.Machine.execArmLdrdPosition c s
  | .armStrdPosition c _ _ _ _ => Sys2Proof.Machine.execArmStrdPosition c s
  | .armReservedSh00 c => Sys2Proof.Machine.execArmReservedSh00 c s
  | .armMrs c spsr rd => Sys2Proof.Machine.execArmMrs c spsr rd s
  | .armReservedPsr c => Sys2Proof.Machine.execArmReservedPsr c s
  | .armMsrReg c spsr fm rm => Sys2Proof.Machine.execArmMsrReg c spsr fm rm s
  | .armMsrImm c spsr fm rot imm8 => Sys2Proof.Machine.execArmMsrImm c spsr fm rot imm8 s
  | .armAnd c sbit rn rd op2 => Sys2Proof.Machine.execArmAnd c sbit rn rd op2 s
  | .armEor c sbit rn rd op2 => Sys2Proof.Machine.execArmEor c sbit rn rd op2 s
  | .armSub c sbit rn rd op2 => Sys2Proof.Machine.execArmSub c sbit rn rd op2 s
  | .armRsb c sbit rn rd op2 => Sys2Proof.Machine.execArmRsb c sbit rn rd op2 s
  | .armAdd c sbit rn rd op2 => Sys2Proof.Machine.execArmAdd c sbit rn rd op2 s
  | .armAdc c sbit rn rd op2 => Sys2Proof.Machine.execArmAdc c sbit rn rd op2 s
  | .armSbc c sbit rn rd op2 => Sys2Proof.Machine.execArmSbc c sbit rn rd op2 s
  | .armRsc c sbit rn rd op2 => Sys2Proof.Machine.execArmRsc c sbit rn rd op2 s
  | .armTst c rn op2 => Sys2Proof.Machine.execArmTst c rn op2 s
  | .armTeq c rn op2 => Sys2Proof.Machine.execArmTeq c rn op2 s
  | .armCmp c rn op2 => Sys2Proof.Machine.execArmCmp c rn op2 s
  | .armCmn c rn op2 => Sys2Proof.Machine.execArmCmn c rn op2 s
  | .armOrr c sbit rn rd op2 => Sys2Proof.Machine.execArmOrr c sbit rn rd op2 s
  | .armMov c sbit rd op2 => Sys2Proof.Machine.execArmMov c sbit rd op2 s
  | .armBic c sbit rn rd op2 => Sys2Proof.Machine.execArmBic c sbit rn rd op2 s
  | .armMvn c sbit rd op2 => Sys2Proof.Machine.execArmMvn c sbit rd op2 s
  | .armNoClassCoprocTransfer c => Sys2Proof.Machine.execArmNoClassCoprocTransfer c s
  | .armNoClassCoprocOperation c => Sys2Proof.Machine.execArmNoClassCoprocOperation c s
  | .thumbSwi _ => Sys2Proof.Machine.execThumbSwi s
  | .thumbB off11 => Sys2Proof.Machine.execThumbB off11 s
  | .thumbBcond c soff8 => Sys2Proof.Machine.execThumbBcond c soff8 s
  | .thumbStmia rb list => Sys2Proof.Machine.execThumbStmia rb list s
  | .thumbLdmia rb list => Sys2Proof.Machine.execThumbLdmia rb list s
  | .thumbBlFirst off11 => Sys2Proof.Machine.execThumbBlFirst off11 s
  | .thumbBlSecond off11 => Sys2Proof.Machine.execThumbBlSecond off11 s
  | .thumbAddSp imm7 => Sys2Proof.Machine.execThumbAddSp imm7 s
  | .thumbSubSp imm7 => Sys2Proof.Machine.execThumbSubSp imm7 s
  | .thumbPush lr list => Sys2Proof.Machine.execThumbPush lr list s
  | .thumbPop pc list => Sys2Proof.Machine.execThumbPop pc list s
  | .thumbStrhImm imm5 rb rd => Sys2Proof.Machine.execThumbStrhImm imm5 rb rd s
  | .thumbLdrhImm imm5 rb rd => Sys2Proof.Machine.execThumbLdrhImm imm5 rb rd s
  | .thumbStrSp rd imm8 => Sys2Proof.Machine.execThumbStrSp rd imm8 s
  | .thumbLdrSp rd imm8 => Sys2Proof.Machine.execThumbLdrSp rd imm8 s
  | .thumbAddRdPc rd imm8 => Sys2Proof.Machine.execThumbAddRdPc rd imm8 s
  | .thumbAddRdSp rd imm8 => Sys2Proof.Machine.execThumbAddRdSp rd imm8 s
  | .thumbStrImm imm5 rb rd => Sys2Proof.Machine.execThumbStrImm imm5 rb rd s
  | .thumbLdrImm imm5 rb rd => Sys2Proof.Machine.execThumbLdrImm imm5 rb rd s
  | .thumbStrbImm imm5 rb rd => Sys2Proof.Machine.execThumbStrbImm imm5 rb rd s
  | .thumbLdrbImm imm5 rb rd => Sys2Proof.Machine.execThumbLdrbImm imm5 rb rd s
  | .thumbStrReg ro rb rd => Sys2Proof.Machine.execThumbStrReg ro rb rd s
  | .thumbStrbReg ro rb rd => Sys2Proof.Machine.execThumbStrbReg ro rb rd s
  | .thumbLdrReg ro rb rd => Sys2Proof.Machine.execThumbLdrReg ro rb rd s
  | .thumbLdrbReg ro rb rd => Sys2Proof.Machine.execThumbLdrbReg ro rb rd s
  | .thumbStrhReg ro rb rd => Sys2Proof.Machine.execThumbStrhReg ro rb rd s
  | .thumbLdsbReg ro rb rd => Sys2Proof.Machine.execThumbLdsbReg ro rb rd s
  | .thumbLdrhReg ro rb rd => Sys2Proof.Machine.execThumbLdrhReg ro rb rd s
  | .thumbLdshReg ro rb rd => Sys2Proof.Machine.execThumbLdshReg ro rb rd s
  | .thumbLdrPc rd imm8 => Sys2Proof.Machine.execThumbLdrPc rd imm8 s
  | .thumbAddHi rd rs => Sys2Proof.Machine.execThumbAddHi rd rs s
  | .thumbCmpHi rd rs => Sys2Proof.Machine.execThumbCmpHi rd rs s
  | .thumbMovHi rd rs => Sys2Proof.Machine.execThumbMovHi rd rs s
  | .thumbBx rs => Sys2Proof.Machine.execThumbBx rs s
  | .thumbAnd rs rd => Sys2Proof.Machine.execThumbAnd rs rd s
  | .thumbEor rs rd => Sys2Proof.Machine.execThumbEor rs rd s
  | .thumbLslReg rs rd => Sys2Proof.Machine.execThumbLslReg rs rd s
  | .thumbLsrReg rs rd => Sys2Proof.Machine.execThumbLsrReg rs rd s
  | .thumbAsrReg rs rd => Sys2Proof.Machine.execThumbAsrReg rs rd s
  | .thumbAdc rs rd => Sys2Proof.Machine.execThumbAdc rs rd s
  | .thumbSbc rs rd => Sys2Proof.Machine.execThumbSbc rs rd s
  | .thumbRor rs rd => Sys2Proof.Machine.execThumbRor rs rd s
  | .thumbTst rs rd => Sys2Proof.Machine.execThumbTst rs rd s
  | .thumbNeg rs rd => Sys2Proof.Machine.execThumbNeg rs rd s
  | .thumbCmp rs rd => Sys2Proof.Machine.execThumbCmp rs rd s
  | .thumbCmn rs rd => Sys2Proof.Machine.execThumbCmn rs rd s
  | .thumbOrr rs rd => Sys2Proof.Machine.execThumbOrr rs rd s
  | .thumbMul rs rd => Sys2Proof.Machine.execThumbMul rs rd s
  | .thumbBic rs rd => Sys2Proof.Machine.execThumbBic rs rd s
  | .thumbMvn rs rd => Sys2Proof.Machine.execThumbMvn rs rd s
  | .thumbMovImm rd imm8 => Sys2Proof.Machine.execThumbMovImm rd imm8 s
  | .thumbCmpImm rd imm8 => Sys2Proof.Machine.execThumbCmpImm rd imm8 s
  | .thumbAddImm8 rd imm8 => Sys2Proof.Machine.execThumbAddImm8 rd imm8 s
  | .thumbSubImm8 rd imm8 => Sys2Proof.Machine.execThumbSubImm8 rd imm8 s
  | .thumbAddReg rn rs rd => Sys2Proof.Machine.execThumbAddReg rn rs rd s
  | .thumbSubReg rn rs rd => Sys2Proof.Machine.execThumbSubReg rn rs rd s
  | .thumbAddImm3 imm3 rs rd => Sys2Proof.Machine.execThumbAddImm3 imm3 rs rd s
  | .thumbSubImm3 imm3 rs rd => Sys2Proof.Machine.execThumbSubImm3 imm3 rs rd s
  | .thumbLslImm imm5 rs rd => Sys2Proof.Machine.execThumbLslImm imm5 rs rd s
  | .thumbLsrImm imm5 rs rd => Sys2Proof.Machine.execThumbLsrImm imm5 rs rd s
  | .thumbAsrImm imm5 rs rd => Sys2Proof.Machine.execThumbAsrImm imm5 rs rd s
  | .thumbNoClassE8 => Sys2Proof.Machine.execThumbNoClassE8 s
  | .thumbNoClassB0 => Sys2Proof.Machine.execThumbNoClassB0 s

end Sys2Proof.Machine
end

