-- ==== Sys2Proof/Machine/Timers.lean ====
section
/-! DEFINITION. The timers and the FIFO service they clock (spec `60_exceptions.md` R560-R567, `50_dma.md` R515). -/

namespace Sys2Proof.Machine

/-- FIFO A's part of `FifoTimerOverflow(t)`: SOUNDCNT_H bit 10 selects the timer (`50_dma.md` R515). -/
def fifoOverflowA (r15 : Word) (t : Fin 4) (b : Bus) : Bus :=
  if (b.io.soundcntH.getLsbD 10).toNat = t.val then
    let b := { b with io := { b.io with fifoA := b.io.fifoA - 1 } }
    if b.io.fifoA ≤ 16 then fifoDma r15 1 0x040000A0#32 b else b
  else b

/-- FIFO B's part: SOUNDCNT_H bit 14 (`50_dma.md` R515). -/
def fifoOverflowB (r15 : Word) (t : Fin 4) (b : Bus) : Bus :=
  if (b.io.soundcntH.getLsbD 14).toNat = t.val then
    let b := { b with io := { b.io with fifoB := b.io.fifoB - 1 } }
    if b.io.fifoB ≤ 16 then fifoDma r15 2 0x040000A4#32 b else b
  else b

/-- `FifoTimerOverflow(t)` (`50_dma.md` R515). -/
def fifoTimerOverflow (r15 : Word) (t : Fin 4) (b : Bus) : Bus :=
  fifoOverflowB r15 t (fifoOverflowA r15 t b)

/-- `prescale_shift` (R561). -/
def Timer.shift (t : Timer) : Nat :=
  match (t.control.extractLsb' 0 2).toNat with
  | 0 => 0 | 1 => 6 | 2 => 8 | _ => 10

/-- The counter and accumulator after a batch of `d` cycles with `carry` overflows of the previous timer, before the
overflow test (R562); `cascades` is false for timer 0. -/
def Timer.count (t : Timer) (cascades : Bool) (d carry : Nat) : Timer :=
  if cascades && t.control.getLsbD 2 then { t with counter := t.counter + carry }
  else
    let acc := t.acc + d
    let ticks := acc >>> t.shift
    { t with counter := t.counter + ticks, acc := acc - ticks <<< t.shift }

/-- The overflow of a timer whose counter passed 0xFFFF (R562). -/
def timerOverflow (r15 : Word) (t : Fin 4) (b : Bus) : Bus :=
  let b := updTimer t (fun x => { x with counter := x.reload.toNat + (x.counter - 0x10000) }) b
  let b := if t.val ≤ 1 then fifoTimerOverflow r15 t b else b
  if (b.io.timer.get t).control.getLsbD 6 then raiseIrq (3 + t.val) b else b

/-- One timer's turn in `TimersAdvance(d)` (R562): the bus and the overflow carry into the next timer. -/
def timerStep (r15 : Word) (d : Nat) (t : Fin 4) (p : Bus × Nat) : Bus × Nat :=
  let (b, carry) := p
  if (b.io.timer.get t).control.getLsbD 7 = false then (b, 0)
  else
    let b := updTimer t (fun x => x.count (t.val != 0) d carry) b
    if (b.io.timer.get t).counter > 0xFFFF then (timerOverflow r15 t b, 1) else (b, 0)

/-- `TimersAdvance(d)` (R562). -/
def timersAdvance (r15 : Word) (d : Nat) (b : Bus) : Bus :=
  (timerStep r15 d 3 (timerStep r15 d 2 (timerStep r15 d 1 (timerStep r15 d 0 (b, 0))))).1

end Sys2Proof.Machine
end

