-- ==== Sys2Proof/Machine/Run.lean ====
section
/-! DEFINITION. The CPU step: fetch, execute, account, sample (spec `10_state.md` R34; `60_exceptions.md` R545, R547, R570). -/

namespace Sys2Proof

/-- What the parameter `Cycles` gives an instruction above the default, where `Params` does not choose the default: a
function of the instruction and of the state BEFORE its step, in which the latch is still full or empty. A step is a function
of that state, so the state fixes every access of the step, both fetches of a refill included: a `Cycles` that prices each
access is one of these functions (`00_scope.md` R7, `70_reset_and_hazards.md` R610, R612). FREE VALUE, log entry 13. -/
opaque Config.cyclesAbove (i : Instr) (s : Machine.State) : Nat

end Sys2Proof

namespace Sys2Proof.Machine

/-- `latch.op <- Fetch(r15); r15 <- r15 + isize` (R34). -/
def State.fetchIntoLatch (s : State) : State :=
  { s with
    cpu :=
      { s.cpu with
        latchValid := true
        latchOp := fetchValue s.bus s.r15 s.fetchWidth
        regs := { s.cpu.regs with r15 := s.r15 + s.isize } }
    bus := afterFetch s.bus s.r15 s.fetchWidth }

/-- Phase 1: the latch is filled if it is empty. -/
def State.fillLatch (s : State) : State :=
  if s.cpu.latchValid then s else s.fetchIntoLatch

/-- The start of a step: `cycles <- 0`. -/
def State.clearTally (s : State) : State :=
  { s with cycles := 0, bus := { s.bus with dmaCycles := 0 } }

/-- `cur <- latch.op`. -/
def State.takeLatch (s : State) : State :=
  { s with cpu := { s.cpu with cur := s.cpu.latchOp } }

/-- The state after phases 1 and 2. -/
def State.afterFetches (s : State) : State :=
  s.clearTally.fillLatch.takeLatch.fetchIntoLatch

/-- The instruction that phase 3 executes: T is sampled before phase 1, and no fetch changes it. -/
def State.currentInstr (s : State) : Instr :=
  decodeOpcode s.afterFetches.thumb s.afterFetches.cpu.cur

/-- The cycles of an instruction above the contributions of R611, in the state before its step: none with the default
`Cycles` (R610; log entry 13). -/
def State.cyclesAbove (s : State) (i : Instr) : Nat :=
  match s.bus.params.cycles with
  | .default => 0
  | .other => Config.cyclesAbove i s

/-- The state that phase 3 executes in. The tally starts from what `Cycles` adds to the default, and the meaning of the
instruction adds the default's contributions. -/
def State.fetched (s : State) : State :=
  s.afterFetches.tally (s.cyclesAbove s.currentInstr)

/-- The level of `FIQ_LINE` at this sample (R547; log entry 11). -/
def State.fiqLine (s : State) : Bool := s.inputs.fiq.headD false

/-- The FIQ level taken from the host's queue. -/
def State.popFiq (s : State) : State :=
  { s with inputs := { s.inputs with fiq := s.inputs.fiq.tail } }

/-- The interrupt that `IrqSample()` enters: FIQ before IRQ (R545, R547, R537). -/
def State.sampledInterrupt (s : State) : Option Exception :=
  if s.fiqLine && !s.flagF then some .fiq
  else if !s.flagI && s.bus.io.ime && irqPending s.bus then some .irq
  else none

/-- `IrqSample()` (R545). -/
def State.irqSample (s : State) : State :=
  match s.sampledInterrupt with
  | some e => s.popFiq.enter e
  | none => s.popFiq

/-- `cycle_counter`, the timers and the budget position advanced by `k` cycles; FIFO transfers inside `TimersAdvance`
add their `DMA_COST` to counter and budget (`70_reset_and_hazards.md` R610, R614; log entry 14). -/
def State.elapse (s : State) (k : Nat) : State :=
  let b := timersAdvance s.r15 k { s.bus with dmaCycles := 0 }
  { s with
    bus := b
    cycleCounter := s.cycleCounter + k + b.dmaCycles
    budgetPos := s.budgetPos + k + b.dmaCycles }

/-- Phase 4 (R34, R36): nothing of it after a fatal condition. The sample reads the I that the instruction left, so an
interrupt still pending at a return from its handler is taken in the return's own step (log entry 32). -/
def State.retire (s : State) : State :=
  match s.fatal with
  | some _ => s
  | none => (s.elapse (s.cycles + s.bus.dmaCycles)).irqSample

/-- `Step()` (R34). -/
def cpuStep (s : State) : Result :=
  match exec s.currentInstr s.fetched with
  | .next t => .next t.retire
  | .fault f => .fault f
  | .refused r => .refused r

/-- One turn of a halted CPU's budget loop: wake, or let one cycle pass (R570, R571, R576). -/
def haltedStep (s : State) : State :=
  if irqPending s.bus then { s with bus := { s.bus with run := .run } } else s.elapse 1

end Sys2Proof.Machine
end

