-- ==== Sys2Proof/Machine/Sequencer.lean ====
section
/-! DEFINITION. The scanline sequencer, the reset input and the host's inputs (spec `60_exceptions.md` R575-R579;
`70_reset_and_hazards.md` R590, R591). One step of the machine is one action of the loop (log entry 12). -/

namespace Sys2Proof.Machine

/-- One DISPSTAT bit written by the sequencer (`22_io_registers.md` R177). -/
def setDispstat (k : Nat) (v : Bool) (b : Bus) : Bus :=
  { b with
    io := { b.io with
      dispstat := if v then b.io.dispstat ||| (1#16 <<< k) else b.io.dispstat &&& ~~~(1#16 <<< k) } }

/-- An interrupt raised if its DISPSTAT enable is set (R577). -/
def raiseIfEnabled (enable k : Nat) (b : Bus) : Bus :=
  if b.io.dispstat.getLsbD enable then raiseIrq k b else b

/-- Steps 1 and 2 of `Line()`: flags cleared, V-count match (R575). -/
def lineMatch (b : Bus) : Bus :=
  let b := setDispstat 2 false (setDispstat 1 false b)
  if b.io.vcount = (b.io.dispstat.extractLsb' 8 8).toNat then raiseIfEnabled 5 2 (setDispstat 2 true b) else b

/-- Step 3 of `Line()`: V-blank at line 160 (R575). -/
def lineVblank (r15 : Word) (b : Bus) : Bus :=
  if b.io.vcount = 160 then dmaTrigger 1#2 r15 (raiseIfEnabled 3 0 (setDispstat 0 true b)) else b

/-- Steps 5 and 6 of `Line()`: H-blank transfers and flag (R575). -/
def lineHblank (r15 : Word) (b : Bus) : Bus :=
  let b := if b.io.vcount < 160 then dmaTrigger 2#2 r15 b else b
  raiseIfEnabled 4 1 (setDispstat 1 true b)

/-- A budget begins: `t <- budget_carry`, after the `DMA_COST` of the transfers just triggered (R576, R614; log entry 14). -/
def State.openBudget (s : State) (phase : SeqPhase) : State :=
  { s with seq := phase, budgetPos := s.budgetCarry + s.bus.dmaCycles }

/-- A budget ends: `budget_carry <- t - B` (R576). -/
def State.closeBudget (s : State) (budget : Nat) : State :=
  { s with budgetCarry := s.budgetPos - budget }

/-- The bus changed by an event of the sequencer. -/
def State.event (s : State) (f : Bus → Bus) : State :=
  { s with bus := f { s.bus with dmaCycles := 0 } }

/-- Steps 1 to 3 of `Line()`, and the H-draw budget opened (R575). -/
def lineStartStep (s : State) : Result :=
  finish ((s.event fun b => lineVblank s.r15 (lineMatch b)).openBudget .hDraw)

/-- The H-draw budget closed, steps 5 and 6, the H-blank budget opened (R575). -/
def drawEndStep (s : State) : Result :=
  finish (((s.closeBudget 1006).event (lineHblank s.r15)).openBudget .hBlank)

/-- The host's key value at a frame boundary; bits 15:10 read 0 (`22_io_registers.md` R203, R579; log entry 11). -/
def State.frameBoundary (s : State) : State :=
  match s.inputs.keys with
  | [] => s
  | v :: rest =>
    { s with
      bus := { s.bus with io := { s.bus.io with keyinput := v &&& 0x03FF#16 } }
      inputs := { s.inputs with keys := rest } }

/-- `vcount` set. -/
def setVcount (n : Nat) (b : Bus) : Bus :=
  { b with io := { b.io with vcount := n } }

/-- Step 9 of `Line()` (R575). -/
def nextLine (s : State) : State :=
  if s.bus.io.vcount + 1 = 228 then (s.event fun b => setDispstat 0 false (setVcount 0 b)).frameBoundary
  else s.event (setVcount (s.bus.io.vcount + 1))

/-- The H-blank budget closed and step 9 (R575). -/
def lineEndStep (s : State) : Result :=
  .next { nextLine (s.closeBudget 226) with seq := .lineStart }

/-- One turn of `RunCpu(B)` (R576). -/
def budgetStep (s : State) : Result :=
  match s.bus.run with
  | .run => cpuStep s
  | .halt => .next (haltedStep s)
  | .stop => .next (haltedStep s)

/-- One action of the loop (R575, R576). -/
def loopStep (s : State) : Result :=
  match s.seq with
  | .lineStart => lineStartStep s
  | .hDraw => if s.budgetPos < 1006 then budgetStep s else drawEndStep s
  | .hBlank => if s.budgetPos < 226 then budgetStep s else lineEndStep s

/-- The next action executes an instruction: inside a budget, running, not stopped. -/
def State.inBudget (s : State) : Bool :=
  match s.seq with
  | .lineStart => false
  | .hDraw => decide (s.budgetPos < 1006)
  | .hBlank => decide (s.budgetPos < 226)

/-- The level of the reset input at this step (R591; log entry 11). -/
def State.resetLine (s : State) : Bool := s.inputs.reset.headD false

/-- The reset level taken from the host's queue. -/
def State.popReset (s : State) : State :=
  { s with inputs := { s.inputs with reset := s.inputs.reset.tail } }

/-- One step: the reset input overrides everything (R537, R591); then the refusal and the fatal latch stop the machine
(R37); then one action of the loop. -/
def machineStep (s : State) : Result :=
  if s.resetLine then .next (State.resetWith s.bus.params s.popReset.inputs)
  else
    match s.bus.refusal with
    | some r => .refused r
    | none =>
      match s.fatal with
      | some f => .fault f
      | none => loopStep s.popReset

end Sys2Proof.Machine
end

