-- ==== Sys2Proof/Machine/Load.lean ====
section
/-! DEFINITION. How an instruction is placed from outside where the next step fetches it (log entry 8). -/

namespace Sys2Proof.Machine

/-- The store behind an address that a fetch reads, with a value written as the image or RAM holds it; none where the
region has no such store. -/
def placeAt (b : Bus) (a : Word) (w : Width) (v : Word) : Option Bus :=
  if eepromWindow b a false then none
  else
    match regionOf a with
    | .bios =>
      if biosPermitted a a then
        some { b with params := { b.params with bios := writeBytes b.params.bios (offsetOf a) w v } }
      else none
    | .ewram => some { b with mem := writeBytes b.mem (ramKey a) w v }
    | .iwram => some { b with mem := writeBytes b.mem (ramKey a) w v }
    | .pal => some { b with mem := writeBytes b.mem (ramKey a) w v }
    | .vram => some { b with mem := writeBytes b.mem (ramKey a) w v }
    | .oam => some { b with mem := writeBytes b.mem (ramKey a) w v }
    | .rom =>
      some { b with
        params := { b.params with
          rom := writeBytes b.params.rom (romIndex a) w v
          romSize := max b.params.romSize (romIndex a + w.bytes) } }
    | .io => none
    | .backup => none
    | .unmapped => none

/-- The opcode placed in the prefetch latch, as a fetch from r15 would have left it. -/
def State.placeInLatch (s : State) (v : Word) : State :=
  if s.cpu.latchValid then { s with cpu := { s.cpu with latchOp := v } }
  else
    { s with
      cpu := { s.cpu with
        latchValid := true
        latchOp := v
        regs := { s.cpu.regs with r15 := s.r15 + s.isize } } }

/-- The opcode placed where the next CPU step takes it: the latch if it is full, else the memory at r15. -/
def State.placeOpcode (s : State) (v : Word) : State :=
  if s.cpu.latchValid then s.placeInLatch v
  else
    match placeAt s.bus s.r15 s.fetchWidth v with
    | some b => { s with bus := b }
    | none => s.placeInLatch v

/-- The machine about to execute an instruction in a given state T: running, not stopped, no reset pending, inside a budget. -/
def State.readyToRun (s : State) (thumb : Bool) : State :=
  { s with
    cpu := { s.cpu with
      cpsr := setBit s.cpu.cpsr 5 thumb
      regs := { s.cpu.regs with r15 := alignPc thumb s.r15 } }
    bus := { s.bus with run := .run, refusal := none }
    fatal := none
    seq := if s.inBudget then s.seq else .hDraw
    budgetPos := if s.inBudget then s.budgetPos else 0
    inputs := { s.inputs with reset := [] } }

/-- A 16-bit Thumb word or a 32-bit ARM word placed so that the next step executes it. -/
def State.place (s : State) (nbits w : Nat) : State :=
  if nbits = 16 then (s.readyToRun true).placeOpcode (BitVec.ofNat 32 (w % 0x10000))
  else (s.readyToRun false).placeOpcode (BitVec.ofNat 32 w)

end Sys2Proof.Machine
end

