-- ==== Sys2Proof/Machine/Step.lean ====
section
/-! DEFINITION. The step of GBA-CORE (spec `10_state.md` R34, `60_exceptions.md` R575), and the placing of a word. -/

namespace Sys2Proof.Machine

/-- One step of the machine. -/
def step (s : State) : Host.Outcome State Fault Refusal :=
  machineStep s

/-- The state with an instruction word stored where the next step fetches it (log entry 8). -/
def State.withFetchWord (s : State) (nbits w : Nat) : State :=
  s.place nbits w

end Sys2Proof.Machine
end

