-- ==== Sys2Proof/Safety.lean ====
section
/-! DEFINITION. The terms that claims about the machine use: the invariant of the state, a running machine, frames. -/

namespace Sys2Proof.Machine

/-! ## The invariant -/

/-- The reserved bits and ranges of a DMA channel (`22_io_registers.md` R185, `50_dma.md` R492, R496). -/
structure DmaChannel.Ok (d : DmaChannel) : Prop where
  reserved : d.cntH &&& 0x001F#16 = 0#16
  remaining : d.remaining ≤ 0x10000
  srcEven : d.src.getLsbD 0 = false
  dstEven : d.dst.getLsbD 0 = false

/-- The reserved bits and ranges of a timer (`22_io_registers.md` R192, `10_state.md` R44). -/
structure Timer.Ok (t : Timer) : Prop where
  reserved : t.control &&& 0x38#8 = 0#8
  acc : t.acc < 1024

/-- The reserved bits and ranges of the I/O registers (`22_io_registers.md` R177-R203, `10_state.md` R47, R48). -/
structure Io.Ok (io : Io) : Prop where
  dispstat : io.dispstat &&& 0x00C0#16 = 0#16
  vcount : io.vcount < 228
  soundcntH : io.soundcntH &&& 0x8800#16 = 0#16
  fifoA : io.fifoA ≤ 32
  fifoB : io.fifoB ≤ 32
  dma : ∀ c, (io.dma.get c).Ok
  timer : ∀ t, (io.timer.get t).Ok
  keyinput : io.keyinput &&& 0xFC00#16 = 0#16
  ie : io.ie &&& 0xC000#16 = 0#16
  irf : io.irf &&& 0xC000#16 = 0#16
  waitcnt : io.waitcnt &&& 0xA000#16 = 0#16
  other : io.other.wf

/-- The ranges of the EEPROM machine (`10_state.md` R45, `21_backup.md` R160-R165). -/
structure Eeprom.Ok (e : Eeprom) : Prop where
  store : e.store.wf
  idx : e.idx ≤ 256
  readIdx : e.readIdx ≤ 68
  addr : e.addr &&& 7#13 = 0#13
  readAddr : e.readAddr &&& 7#13 = 0#13

/-- What holds behind the bus: canonical stores, the waitstate tables those of WAITCNT (`20_memory.md` R114), ranges. -/
structure Bus.Ok (b : Bus) : Prop where
  mem : b.mem.wf
  flash : b.flash.store.wf
  eeprom : b.eeprom.Ok
  io : b.io.Ok
  wait : b.wait = WaitTables.compute b.params.regionBase b.io.waitcnt

/-- The invariant: a legal mode (`10_state.md` R27), r15 aligned for T (R29, R31), and the bus. -/
structure State.Inv (s : State) : Prop where
  mode : legalMode s.cpu.cpsr = true
  pc : alignPc s.thumb s.r15 = s.r15
  bus : s.bus.Ok

/-! ## Runs -/

/-- The machine has met neither a fatal condition (`10_state.md` R37) nor the case the model refuses (`50_dma.md` R506). -/
def State.Safe (s : State) : Prop := s.fatal = none ∧ s.bus.refusal = none

/-- The next step executes an instruction (`60_exceptions.md` R576). -/
structure State.Running (s : State) : Prop where
  safe : s.Safe
  noReset : s.resetLine = false
  run : s.bus.run = .run
  budget : s.inBudget = true

/-! ## Frames -/

/-- Everything an instruction touches only through `fatal`, the sequencer or the host is as before, and so are the
opcode being executed and the one in the latch. -/
structure SameControl (s t : State) : Prop where
  fatal : t.fatal = s.fatal
  cycleCounter : t.cycleCounter = s.cycleCounter
  budgetCarry : t.budgetCarry = s.budgetCarry
  seq : t.seq = s.seq
  budgetPos : t.budgetPos = s.budgetPos
  inputs : t.inputs = s.inputs
  cur : t.cpu.cur = s.cpu.cur
  latchOp : t.cpu.latchOp = s.cpu.latchOp

/-- Every physical register but those listed is as before. -/
def SameRegsBut (l : List PhysReg) (s t : State) : Prop :=
  ∀ p, p ∉ l → t.cpu.regs.get p = s.cpu.regs.get p

/-- Bits 27:0 of CPSR are as before. -/
def SameStatusButFlags (s t : State) : Prop :=
  ∀ k, k < 28 → t.cpu.cpsr.getLsbD k = s.cpu.cpsr.getLsbD k

/-- Every byte on the bus reads as before, whatever r15 is at the read. -/
def SameBytes (s t : State) : Prop :=
  ∀ r15 a, readRaw t.bus r15 a .byte = readRaw s.bus r15 a .byte

/-- Nothing behind the bus changed, so every byte reads as before. -/
structure SameBus (s t : State) : Prop where
  bus : t.bus = s.bus
  bytes : SameBytes s t

/-- The flags N, Z, C, V of a state. -/
def State.nzcv (s : State) : Bool × Bool × Bool × Bool :=
  (s.flagN, s.flagZ, s.flagC, s.flagV)

/-- The answer is a next state that satisfies `Q`. -/
def Completes (r : Result) (Q : State → Prop) : Prop :=
  ∃ t, r = .next t ∧ Q t

/-- The last value a sequence of register writes gives a register number. -/
def lastWrite (writes : List (Reg × Word)) (i : Reg) : Option Word :=
  (writes.reverse.find? fun w => w.1 = i).map fun w => w.2

/-- The registers of `t` are those of `s` after the writes `x[i] <- v` of a list, one after the other, in the mode and
state of `s`: the last value stays, r15 is aligned and empties the latch (`10_state.md` R31), no other register changes. -/
structure RegWrites (s : State) (writes : List (Reg × Word)) (t : State) : Prop where
  others : ∀ p, p ≠ PhysReg.r15 → (∀ w ∈ writes, p ≠ phys s.mode w.1) → t.cpu.regs.get p = s.cpu.regs.get p
  written : ∀ i v, i ≠ 15#4 → lastWrite writes i = some v → t.cpu.regs.get (phys s.mode i) = v
  pcKept : lastWrite writes 15#4 = none → t.r15 = s.r15 ∧ t.cpu.latchValid = s.cpu.latchValid
  pcWritten : ∀ v, lastWrite writes 15#4 = some v → t.r15 = alignPc s.thumb v ∧ t.cpu.latchValid = false

/-- `t` is `s` after the given register writes, with N, Z, C, V as given and `k` cycles tallied: the rest of CPSR, the
SPSRs and the control state are as before. What is behind the bus is said beside it. -/
structure Effect (s : State) (writes : List (Reg × Word)) (flags : Bool × Bool × Bool × Bool) (k : Nat) (t : State) :
    Prop where
  regs : RegWrites s writes t
  flags : t.nzcv = flags
  status : SameStatusButFlags s t
  spsr : t.cpu.spsr = s.cpu.spsr
  cycles : t.cycles = s.cycles + k
  control : SameControl s t

/-- An effect on registers and flags alone: nothing behind the bus changes. -/
def RegisterEffect (s : State) (writes : List (Reg × Word)) (flags : Bool × Bool × Bool × Bool) (k : Nat) (t : State) :
    Prop :=
  Effect s writes flags k t ∧ SameBus s t

/-- N, Z, C, V of a result. -/
def resultFlags (r : Word) (c v : Bool) : Bool × Bool × Bool × Bool :=
  (r.msb, decide (r = 0#32), c, v)

/-- `t` is `s` with `pc <- v` (`10_state.md` R31) under the T of `t`, the listed registers possibly changed, CPSR as given
and `k` cycles tallied; SPSRs, every other register, everything behind the bus and the control state as before. -/
structure BranchStep (s : State) (changed : List PhysReg) (v : Word) (cpsr : Word) (k : Nat) (t : State) : Prop where
  target : t.r15 = alignPc t.thumb v
  latch : t.cpu.latchValid = false
  cpsr : t.cpu.cpsr = cpsr
  regs : SameRegsBut (.r15 :: changed) s t
  spsr : t.cpu.spsr = s.cpu.spsr
  bus : SameBus s t
  cycles : t.cycles = s.cycles + k
  control : SameControl s t

/-- `t` is `s` with the fatal latch set and nothing else changed (`10_state.md` R37). -/
structure FatalStep (s : State) (f : Fault) (t : State) : Prop where
  fatal : t.fatal = some f
  cpu : t.cpu = s.cpu
  bus : SameBus s t
  cycles : t.cycles = s.cycles
  cycleCounter : t.cycleCounter = s.cycleCounter
  budget : t.budgetCarry = s.budgetCarry ∧ t.budgetPos = s.budgetPos ∧ t.seq = s.seq
  inputs : t.inputs = s.inputs

/-- What a read may change behind the bus: the EEPROM read index alone (`20_memory.md` R94). -/
structure SameBusButReadIdx (s t : State) : Prop where
  params : t.bus.params = s.bus.params
  mem : t.bus.mem = s.bus.mem
  biosBus : t.bus.biosBus = s.bus.biosBus
  io : t.bus.io = s.bus.io
  wait : t.bus.wait = s.bus.wait
  flash : t.bus.flash = s.bus.flash
  eeprom : { t.bus.eeprom with readIdx := s.bus.eeprom.readIdx } = s.bus.eeprom
  run : t.bus.run = s.bus.run
  dmaCycles : t.bus.dmaCycles = s.bus.dmaCycles
  refusal : t.bus.refusal = s.bus.refusal
  bytes : ∀ r15 a, eepromWindow s.bus a false = false → readRaw t.bus r15 a .byte = readRaw s.bus r15 a .byte

/-- The address lies in a region that stores plain bytes for this width: EWRAM and IWRAM always, PAL, VRAM and OAM for
halfwords and words (`20_memory.md` R86). -/
def storesPlainly (a : Word) (w : Width) : Bool :=
  match regionOf a with
  | .ewram => true
  | .iwram => true
  | .pal => w != .byte
  | .vram => w != .byte
  | .oam => w != .byte
  | .bios => false
  | .unmapped => false
  | .io => false
  | .rom => false
  | .backup => false

/-- The byte at `a` is one of the `w.bytes` bytes that a plain store of width `w` at `addr` writes (mirrors included). -/
def storedByte (addr : Word) (w : Width) (a : Word) : Prop :=
  regionOf a = regionOf addr ∧ ramKey (w.align addr) ≤ ramKey a ∧ ramKey a < ramKey (w.align addr) + w.bytes

/-- What a plain store of width `w` at `addr` leaves behind the bus: the stored bytes read as the value's bytes, every
other byte reads as before, and nothing but the memory changed (`20_memory.md` R86, R91). -/
structure PlainStore (s : State) (addr : Word) (w : Width) (v : Word) (t : State) : Prop where
  stored : ∀ k, k < w.bytes → ∀ r15,
    readRaw t.bus r15 (w.align addr + BitVec.ofNat 32 k) .byte = (lane v k).setWidth 32
  others : ∀ r15 a, ¬ storedByte addr w a → readRaw t.bus r15 a .byte = readRaw s.bus r15 a .byte
  rest : { t.bus with mem := s.bus.mem } = s.bus

/-- Every byte of every other region reads as before. -/
def SameOutside (g : Region) (s t : State) : Prop :=
  ∀ r15 a, regionOf a ≠ g → readRaw t.bus r15 a .byte = readRaw s.bus r15 a .byte

/-- The store reaches a byte of a DMA control register CNT_H, whose enable edge can start a transfer
(`22_io_registers.md` R186). -/
def reachesDmaControl (addr : Word) (w : Width) : Bool :=
  regionOf (w.align addr) = .io &&
    (List.range w.bytes).any fun k =>
      match ioLane (offsetOf (w.align addr) + k) with
      | .dmaCntH _ _ => true
      | _ => false

/-- What a store of width `w` at `addr`, none that reaches a DMA control register, leaves behind the bus, by region: plain
storage, a doubled byte in PAL and VRAM, nothing, or only the region's own device (`20_memory.md` R72-R82, R84, R86). -/
structure StoreEffect (s : State) (addr : Word) (w : Width) (v : Word) (t : State) : Prop where
  plain : storesPlainly (w.align addr) w = true → PlainStore s addr w v t
  video : w = .byte → (regionOf addr = .pal ∨ regionOf addr = .vram) →
    PlainStore s addr .half ((lane v 0 ++ lane v 0).setWidth 32) t
  ignored : (regionOf (w.align addr) = .bios ∨ regionOf (w.align addr) = .unmapped ∨ (regionOf addr = .oam ∧ w = .byte) ∨
      (regionOf (w.align addr) = .rom ∧ eepromWindow s.bus (w.align addr) true = false)) → SameBus s t
  device : (regionOf (w.align addr) = .io ∨ regionOf (w.align addr) = .backup ∨ regionOf (w.align addr) = .rom) →
    SameOutside (regionOf (w.align addr)) s t

/-- The value a load gives Rd, from the bytes of the access (`42_arm_load_store.md` R323, R324, R332-R334). -/
def loadedValue (s : State) (k : LoadKind) (addr : Word) : Word :=
  match k with
  | .word => ror (readRaw s.bus s.r15 addr .word) (8 * (addr.toNat % 4))
  | .byte => readRaw s.bus s.r15 addr .byte
  | .half => ror (readRaw s.bus s.r15 addr .half) (8 * (addr.toNat % 2))
  | .signedByte => BitVec.ofInt 32 ((readRaw s.bus s.r15 addr .byte).setWidth 8).toInt
  | .signedHalf =>
    if addr.toNat % 2 = 1 then BitVec.ofInt 32 ((readRaw s.bus s.r15 addr .byte).setWidth 8).toInt
    else BitVec.ofInt 32 ((readRaw s.bus s.r15 addr .half).setWidth 16).toInt

/-- `idx` of a single transfer (R320). -/
def indexOf (ix : Indexing) (base off : Word) : Word := if ix.up then base + off else base - off

/-- `addr` of a single transfer (R320). -/
def addressOf (ix : Indexing) (base off : Word) : Word := if ix.pre then indexOf ix base off else base

/-- The base write-back of a single transfer (R320): post-indexed always, pre-indexed when W = 1. -/
def baseWrites (ix : Indexing) (rn : Reg) (base off : Word) : List (Reg × Word) :=
  if ix.pre = false ∨ ix.wback = true then [(rn, indexOf ix base off)] else []

/-- The data of a store: r15 stores 4 more than it reads (R321). -/
def storedData (s : State) (rd : Reg) : Word := if rd = 15#4 then s.r15 + 4#32 else s.x rd

/-- What a load leaves: the writes in their order, `k` cycles, and behind the bus at most the EEPROM read index. -/
structure LoadStep (s : State) (addr : Word) (w : Width) (writes : List (Reg × Word)) (k : Nat) (t : State) : Prop where
  effect : Effect s writes s.nzcv k t
  bus : t.bus = afterRead s.bus addr w
  frame : SameBusButReadIdx s t

/-- What a store leaves: the writes to registers, `k` cycles, and behind the bus the access of R91 and nothing else. -/
structure StoreStep (s : State) (addr : Word) (w : Width) (v : Word) (writes : List (Reg × Word)) (k : Nat) (t : State) :
    Prop where
  effect : Effect s writes s.nzcv k t
  bus : t.bus = busWrite s.r15 addr w v s.bus
  frame : StoreEffect s addr w v t

/-- A store meets none of what D0 leaves open (`50_dma.md` R506), and the memory is in canonical form. -/
structure StoreReady (s : State) (addr : Word) (w : Width) : Prop where
  refusal : s.bus.refusal = none
  noDma : reachesDmaControl addr w = false
  mem : s.bus.mem.wf

/-- `t` is `s` with CPSR and the SPSRs as given and one cycle tallied: every register, the latch, everything behind the bus
and the control state as before. -/
structure StatusStep (s : State) (cpsr : Word) (spsr : Spsrs) (t : State) : Prop where
  cpsr : t.cpu.cpsr = cpsr
  spsr : t.cpu.spsr = spsr
  regs : t.cpu.regs = s.cpu.regs
  latch : t.cpu.latchValid = s.cpu.latchValid
  bus : SameBus s t
  cycles : t.cycles = s.cycles + 1
  control : SameControl s t

/-- The instruction ends in the fatal latch (`10_state.md` R37). -/
def EndsFatal (i : Instr) (s : State) (f : Fault) : Prop :=
  ∃ t, exec i s = .next t ∧ FatalStep s f t

/-- The condition of an ARM instruction; a Thumb instruction has none (`30_encoding.md` R221, R223). -/
def instrCond : Instr → Option Cond
  | .armBx c _ | .armLdm c _ _ _ | .armStm c _ _ _ | .armB c _ | .armBl c _ | .armSwi c _ | .armUnd c => some c
  | .armLdr c _ _ _ _ | .armLdrb c _ _ _ _ | .armStr c _ _ _ _ | .armStrb c _ _ _ _ => some c
  | .armSwp c _ _ _ | .armSwpb c _ _ _ | .armMul c _ _ _ _ | .armMla c _ _ _ _ _ => some c
  | .armUmull c _ _ _ _ _ | .armUmlal c _ _ _ _ _ | .armSmull c _ _ _ _ _ | .armSmlal c _ _ _ _ _ => some c
  | .armStrh c _ _ _ _ | .armLdrh c _ _ _ _ | .armLdrsb c _ _ _ _ | .armLdrsh c _ _ _ _ => some c
  | .armLdrdPosition c _ _ _ _ | .armStrdPosition c _ _ _ _ | .armReservedSh00 c => some c
  | .armMrs c _ _ | .armReservedPsr c | .armMsrReg c _ _ _ | .armMsrImm c _ _ _ _ => some c
  | .armAnd c _ _ _ _ | .armEor c _ _ _ _ | .armSub c _ _ _ _ | .armRsb c _ _ _ _ => some c
  | .armAdd c _ _ _ _ | .armAdc c _ _ _ _ | .armSbc c _ _ _ _ | .armRsc c _ _ _ _ => some c
  | .armTst c _ _ | .armTeq c _ _ | .armCmp c _ _ | .armCmn c _ _ => some c
  | .armOrr c _ _ _ _ | .armMov c _ _ _ | .armBic c _ _ _ _ | .armMvn c _ _ _ => some c
  | .armNoClassCoprocTransfer c | .armNoClassCoprocOperation c => some c
  | _ => none

/-! ## Tables of results -/

/-- One row: an instruction, its result and the C and V it computes. -/
structure ResultRow where
  instr : Instr
  value : Word
  carry : Bool
  overflow : Bool

/-- The writing operations of the logical class on operands `a` and `b` with shifter carry `sc` (R264, R265, R277-R280). -/
def logicalRows (c : Cond) (sb : Bool) (rn rd : Reg) (o : Operand2) (a b : Word) (sc v : Bool) : List ResultRow :=
  [ ⟨.armAnd c sb rn rd o, a &&& b, sc, v⟩,
    ⟨.armEor c sb rn rd o, a ^^^ b, sc, v⟩,
    ⟨.armOrr c sb rn rd o, a ||| b, sc, v⟩,
    ⟨.armBic c sb rn rd o, a &&& ~~~b, sc, v⟩,
    ⟨.armMov c sb rd o, b, sc, v⟩,
    ⟨.armMvn c sb rd o, ~~~b, sc, v⟩ ]

/-- `a + b + cin`: C is the unsigned overflow, V the signed overflow (R262). -/
def sumRow (i : Instr) (a b : Word) (cin : Bool) : ResultRow :=
  ⟨i, a + b + (BitVec.ofBool cin).setWidth 32, decide (2 ^ 32 ≤ a.toNat + b.toNat + cin.toNat),
    decide ((a + b + (BitVec.ofBool cin).setWidth 32).toInt ≠ a.toInt + b.toInt + cin.toNat)⟩

/-- `a - b - (1 - cin)`: C is "operand1 >= operand2 [- !C]", V the signed overflow (R262). -/
def differenceRow (i : Instr) (a b : Word) (cin : Bool) : ResultRow :=
  ⟨i, a - b - (BitVec.ofBool (!cin)).setWidth 32, decide (b.toNat + (!cin).toNat ≤ a.toNat),
    decide ((a - b - (BitVec.ofBool (!cin)).setWidth 32).toInt ≠ a.toInt - b.toInt - (!cin).toNat)⟩

/-- The writing operations of the addition and subtraction classes (R266-R271). -/
def arithmeticRows (c : Cond) (sb : Bool) (rn rd : Reg) (o : Operand2) (a b : Word) (cin : Bool) : List ResultRow :=
  [ sumRow (.armAdd c sb rn rd o) a b false,
    sumRow (.armAdc c sb rn rd o) a b cin,
    differenceRow (.armSub c sb rn rd o) a b true,
    differenceRow (.armSbc c sb rn rd o) a b cin,
    differenceRow (.armRsb c sb rn rd o) b a true,
    differenceRow (.armRsc c sb rn rd o) b a cin ]

/-- The operations that only set flags (R272-R275). -/
def testRows (c : Cond) (rn : Reg) (o : Operand2) (a b : Word) (sc v : Bool) : List ResultRow :=
  [ ⟨.armTst c rn o, a &&& b, sc, v⟩,
    ⟨.armTeq c rn o, a ^^^ b, sc, v⟩,
    differenceRow (.armCmp c rn o) a b true,
    sumRow (.armCmn c rn o) a b false ]

/-- Every writing operation of data processing on its operands in `s` (R263-R280). -/
def dataProcessingRows (s : State) (c : Cond) (sb : Bool) (rn rd : Reg) (o : Operand2) : List ResultRow :=
  logicalRows c sb rn rd o (s.operand1 rn o) (s.operand2 o).1 (s.operand2 o).2 s.flagV ++
    arithmeticRows c sb rn rd o (s.operand1 rn o) (s.operand2 o).1 s.flagC

/-- The cycles of a data-processing instruction (R281). -/
def dataProcessingCycles (rd : Reg) (o : Operand2) : Nat :=
  (match o with
    | .shiftReg _ _ _ => 2
    | .imm _ _ => 1
    | .shiftImm _ _ _ => 1) + (if rd = 15#4 then 2 else 0)

/-- The Thumb arithmetic that writes Rd (R383-R386, R389, R390, R396, R397, R400). -/
def thumbArithmeticRows (s : State) (rn rs rd : LoReg) (imm3 : BitVec 3) (imm8 : BitVec 8) : List ResultRow :=
  [ sumRow (.thumbAddReg rn rs rd) (s.x (lo rs)) (s.x (lo rn)) false,
    differenceRow (.thumbSubReg rn rs rd) (s.x (lo rs)) (s.x (lo rn)) true,
    sumRow (.thumbAddImm3 imm3 rs rd) (s.x (lo rs)) (BitVec.ofNat 32 imm3.toNat) false,
    differenceRow (.thumbSubImm3 imm3 rs rd) (s.x (lo rs)) (BitVec.ofNat 32 imm3.toNat) true,
    sumRow (.thumbAddImm8 rd imm8) (s.x (lo rd)) (BitVec.ofNat 32 imm8.toNat) false,
    differenceRow (.thumbSubImm8 rd imm8) (s.x (lo rd)) (BitVec.ofNat 32 imm8.toNat) true,
    sumRow (.thumbAdc rs rd) (s.x (lo rd)) (s.x (lo rs)) s.flagC,
    differenceRow (.thumbSbc rs rd) (s.x (lo rd)) (s.x (lo rs)) s.flagC,
    differenceRow (.thumbNeg rs rd) 0#32 (s.x (lo rs)) true ]

/-- The Thumb logic that writes Rd in one cycle (R387, R391, R392, R403, R405, R406). -/
def thumbLogicalRows (s : State) (rs rd : LoReg) (imm8 : BitVec 8) : List ResultRow :=
  [ ⟨.thumbMovImm rd imm8, BitVec.ofNat 32 imm8.toNat, s.flagC, s.flagV⟩,
    ⟨.thumbAnd rs rd, s.x (lo rd) &&& s.x (lo rs), s.flagC, s.flagV⟩,
    ⟨.thumbEor rs rd, s.x (lo rd) ^^^ s.x (lo rs), s.flagC, s.flagV⟩,
    ⟨.thumbOrr rs rd, s.x (lo rd) ||| s.x (lo rs), s.flagC, s.flagV⟩,
    ⟨.thumbBic rs rd, s.x (lo rd) &&& ~~~s.x (lo rs), s.flagC, s.flagV⟩,
    ⟨.thumbMvn rs rd, ~~~s.x (lo rs), s.flagC, s.flagV⟩ ]

/-- The Thumb comparisons, which write flags alone (R388, R399, R401, R402, R408). -/
def thumbTestRows (s : State) (rs rd : LoReg) (hs hd : Reg) (imm8 : BitVec 8) : List ResultRow :=
  [ differenceRow (.thumbCmpImm rd imm8) (s.x (lo rd)) (BitVec.ofNat 32 imm8.toNat) true,
    ⟨.thumbTst rs rd, s.x (lo rd) &&& s.x (lo rs), s.flagC, s.flagV⟩,
    differenceRow (.thumbCmp rs rd) (s.x (lo rd)) (s.x (lo rs)) true,
    sumRow (.thumbCmn rs rd) (s.x (lo rd)) (s.x (lo rs)) false,
    differenceRow (.thumbCmpHi hd hs) (s.x hd) (s.x hs) true ]

/-- The Thumb shifts: instruction, value and carry, cycles (R380-R382, R393-R395, R398, R412). -/
def thumbShiftRows (s : State) (imm5 : BitVec 5) (rs rd : LoReg) : List (Instr × (Word × Bool) × Nat) :=
  [ (.thumbLslImm imm5 rs rd, shiftImm .lsl (s.x (lo rs)) imm5 s.flagC, 1),
    (.thumbLsrImm imm5 rs rd, shiftImm .lsr (s.x (lo rs)) imm5 s.flagC, 1),
    (.thumbAsrImm imm5 rs rd, shiftImm .asr (s.x (lo rs)) imm5 s.flagC, 1),
    (.thumbLslReg rs rd, shiftReg .lsl (s.x (lo rd)) (lane (s.x (lo rs)) 0) s.flagC, 2),
    (.thumbLsrReg rs rd, shiftReg .lsr (s.x (lo rd)) (lane (s.x (lo rs)) 0) s.flagC, 2),
    (.thumbAsrReg rs rd, shiftReg .asr (s.x (lo rd)) (lane (s.x (lo rs)) 0) s.flagC, 2),
    (.thumbRor rs rd, shiftReg .ror (s.x (lo rd)) (lane (s.x (lo rs)) 0) s.flagC, 2) ]

/-- The Thumb instructions that compute an address or move between any registers: instruction, destination, value (R407,
R409, R420-R423). -/
def thumbAddressRows (s : State) (hd hs : Reg) (rd : LoReg) (imm8 : BitVec 8) (imm7 : BitVec 7) : List (Instr × Reg × Word) :=
  [ (.thumbAddHi hd hs, hd, s.x hd + s.x hs),
    (.thumbMovHi hd hs, hd, s.x hs),
    (.thumbAddRdPc rd imm8, lo rd, (s.r15 &&& ~~~2#32) + BitVec.ofNat 32 (4 * imm8.toNat)),
    (.thumbAddRdSp rd imm8, lo rd, s.x 13#4 + BitVec.ofNat 32 (4 * imm8.toNat)),
    (.thumbAddSp imm7, 13#4, s.x 13#4 + BitVec.ofNat 32 (4 * imm7.toNat)),
    (.thumbSubSp imm7, 13#4, s.x 13#4 - BitVec.ofNat 32 (4 * imm7.toNat)) ]

/-- The long multiplies: instruction, exact product (with the accumulator) mod 2^64, cycles beside m (R302-R306). -/
def longMultiplyRows (s : State) (c : Cond) (sb : Bool) (hi lo rs rm : Reg) : List (Instr × BitVec 64 × Nat) :=
  let u : Int := ((s.x rm).toNat : Int) * ((s.x rs).toNat : Int)
  let i : Int := (s.x rm).toInt * (s.x rs).toInt
  let acc : Int := ((s.x hi).toNat : Int) * 2 ^ 32 + ((s.x lo).toNat : Int)
  [ (.armUmull c sb hi lo rs rm, BitVec.ofInt 64 u, 2),
    (.armUmlal c sb hi lo rs rm, BitVec.ofInt 64 (u + acc), 3),
    (.armSmull c sb hi lo rs rm, BitVec.ofInt 64 i, 2),
    (.armSmlal c sb hi lo rs rm, BitVec.ofInt 64 (i + acc), 3) ]

/-- The ARM single loads: instruction, kind, offset (R323, R324, R332-R334). -/
def armLoadRows (s : State) (c : Cond) (ix : Indexing) (rn rd : Reg) (o : Offset12) (h : Offset8) :
    List (Instr × LoadKind × Word) :=
  [ (.armLdr c ix rn rd o, .word, s.offset12 o),
    (.armLdrb c ix rn rd o, .byte, s.offset12 o),
    (.armLdrh c ix rn rd h, .half, s.offset8 h),
    (.armLdrsb c ix rn rd h, .signedByte, s.offset8 h),
    (.armLdrsh c ix rn rd h, .signedHalf, s.offset8 h) ]

/-- The ARM single stores: instruction, width, offset (R325, R326, R331). -/
def armStoreRows (s : State) (c : Cond) (ix : Indexing) (rn rd : Reg) (o : Offset12) (h : Offset8) :
    List (Instr × Width × Word) :=
  [ (.armStr c ix rn rd o, .word, s.offset12 o),
    (.armStrb c ix rn rd o, .byte, s.offset12 o),
    (.armStrh c ix rn rd h, .half, s.offset8 h) ]

/-- The Thumb single loads: instruction, kind, address (R430, R433, R434, R436-R438, R440, R442, R444, R446). -/
def thumbLoadRows (s : State) (ro rb rd : LoReg) (imm5 : BitVec 5) (imm8 : BitVec 8) : List (Instr × LoadKind × Word) :=
  [ (.thumbLdrPc rd imm8, .word, (s.r15 &&& ~~~2#32) + BitVec.ofNat 32 (4 * imm8.toNat)),
    (.thumbLdrReg ro rb rd, .word, s.x (lo rb) + s.x (lo ro)),
    (.thumbLdrbReg ro rb rd, .byte, s.x (lo rb) + s.x (lo ro)),
    (.thumbLdrhReg ro rb rd, .half, s.x (lo rb) + s.x (lo ro)),
    (.thumbLdsbReg ro rb rd, .signedByte, s.x (lo rb) + s.x (lo ro)),
    (.thumbLdshReg ro rb rd, .signedHalf, s.x (lo rb) + s.x (lo ro)),
    (.thumbLdrImm imm5 rb rd, .word, s.x (lo rb) + BitVec.ofNat 32 (4 * imm5.toNat)),
    (.thumbLdrbImm imm5 rb rd, .byte, s.x (lo rb) + BitVec.ofNat 32 imm5.toNat),
    (.thumbLdrhImm imm5 rb rd, .half, s.x (lo rb) + BitVec.ofNat 32 (2 * imm5.toNat)),
    (.thumbLdrSp rd imm8, .word, s.x 13#4 + BitVec.ofNat 32 (4 * imm8.toNat)) ]

/-- The Thumb single stores: instruction, width, address (R431, R432, R435, R439, R441, R443, R445). -/
def thumbStoreRows (s : State) (ro rb rd : LoReg) (imm5 : BitVec 5) (imm8 : BitVec 8) : List (Instr × Width × Word) :=
  [ (.thumbStrReg ro rb rd, .word, s.x (lo rb) + s.x (lo ro)),
    (.thumbStrbReg ro rb rd, .byte, s.x (lo rb) + s.x (lo ro)),
    (.thumbStrhReg ro rb rd, .half, s.x (lo rb) + s.x (lo ro)),
    (.thumbStrImm imm5 rb rd, .word, s.x (lo rb) + BitVec.ofNat 32 (4 * imm5.toNat)),
    (.thumbStrbImm imm5 rb rd, .byte, s.x (lo rb) + BitVec.ofNat 32 imm5.toNat),
    (.thumbStrhImm imm5 rb rd, .half, s.x (lo rb) + BitVec.ofNat 32 (2 * imm5.toNat)),
    (.thumbStrSp rd imm8, .word, s.x 13#4 + BitVec.ofNat 32 (4 * imm8.toNat)) ]

/-- The instruction stores to memory. -/
def storesMemory : Instr → Bool
  | .armStr .. | .armStrb .. | .armStrh .. | .armStm .. | .armSwp .. | .armSwpb .. => true
  | .thumbStrReg .. | .thumbStrbReg .. | .thumbStrhReg .. | .thumbStrImm .. | .thumbStrbImm .. | .thumbStrhImm .. => true
  | .thumbStrSp .. | .thumbPush .. | .thumbStmia .. => true
  | _ => false

/-- The instruction raises a synchronous exception (R363, R365, R471). -/
def raisesException : Instr → Bool
  | .armSwi .. | .armUnd .. | .thumbSwi .. => true
  | _ => false

/-- The instruction is one that R28 lists among those that write a flag. -/
def mayWriteFlags : Instr → Bool
  | .armAnd _ sb _ _ _ | .armEor _ sb _ _ _ | .armSub _ sb _ _ _ | .armRsb _ sb _ _ _ | .armAdd _ sb _ _ _ => sb
  | .armAdc _ sb _ _ _ | .armSbc _ sb _ _ _ | .armRsc _ sb _ _ _ | .armOrr _ sb _ _ _ | .armBic _ sb _ _ _ => sb
  | .armMov _ sb _ _ | .armMvn _ sb _ _ => sb
  | .armTst .. | .armTeq .. | .armCmp .. | .armCmn .. => true
  | .armMul _ sb _ _ _ | .armMla _ sb _ _ _ _ => sb
  | .armUmull _ sb _ _ _ _ | .armUmlal _ sb _ _ _ _ | .armSmull _ sb _ _ _ _ | .armSmlal _ sb _ _ _ _ => sb
  | .armMsrReg .. | .armMsrImm .. => true
  | .armLdm _ m _ list => m.psr && list.getLsbD 15
  | .thumbLslImm .. | .thumbLsrImm .. | .thumbAsrImm .. | .thumbAddReg .. | .thumbSubReg .. | .thumbAddImm3 .. => true
  | .thumbSubImm3 .. | .thumbMovImm .. | .thumbCmpImm .. | .thumbAddImm8 .. | .thumbSubImm8 .. => true
  | .thumbAnd .. | .thumbEor .. | .thumbLslReg .. | .thumbLsrReg .. | .thumbAsrReg .. | .thumbAdc .. | .thumbSbc .. => true
  | .thumbRor .. | .thumbTst .. | .thumbNeg .. | .thumbCmp .. | .thumbCmn .. | .thumbOrr .. | .thumbMul .. => true
  | .thumbBic .. | .thumbMvn .. | .thumbCmpHi .. => true
  | _ => false

/-- The state after entry of the exception `e` (`60_exceptions.md` R531, R532); `ret` is the return address its row gives,
none for RESET. -/
structure Entered (s : State) (e : Exception) (ret : Option Word) (t : State) : Prop where
  mode : t.mode = e.mode
  irqMasked : t.flagI = true
  fiqMasked : t.flagF = (e.masksFiq || s.flagF)
  arm : t.thumb = false
  status : ∀ k, 8 ≤ k → k < 32 → t.cpu.cpsr.getLsbD k = s.cpu.cpsr.getLsbD k
  spsr : t.cpu.spsr.get e.mode = some s.cpu.cpsr
  otherSpsrs : ∀ m, m ≠ e.mode → t.cpu.spsr.get m = s.cpu.spsr.get m
  link : ∀ v, ret = some v → t.cpu.regs.get (bank14 e.mode) = v
  pc : t.r15 = e.vector
  latch : t.cpu.latchValid = false
  regs : SameRegsBut [bank14 e.mode, .r15] s t
  bus : SameBus s t
  control : SameControl s t

/-! ## Block transfers -/

/-- The numbers below `k` of the set bits of a register list, ascending (R336). -/
def listedBelow (k : Nat) (list : BitVec 16) : List Reg :=
  ((List.range k).filter fun j => list.getLsbD j).map (BitVec.ofNat 4)

/-- `start` of a block transfer of `n` words, by its four forms (R336): IB, IA, DB, DA. -/
def blockStartOf (m : BlockMode) (base : Word) (n : Nat) : Word :=
  if m.up then (if m.pre then base + 4#32 else base)
  else (if m.pre then base - BitVec.ofNat 32 (4 * n) else base - BitVec.ofNat 32 (4 * n) + 4#32)

/-- `final` of a block transfer of `n` words (R336). -/
def blockFinalOf (m : BlockMode) (base : Word) (n : Nat) : Word :=
  if m.up then base + BitVec.ofNat 32 (4 * n) else base - BitVec.ofNat 32 (4 * n)

/-- The address of word `j` of a block. -/
def wordAt (start : Word) (j : Nat) : Word := start + BitVec.ofNat 32 (4 * j)

/-- No word of a block lies in the EEPROM window, where a read has a side effect. -/
def noEeprom (s : State) (start : Word) (n : Nat) : Prop :=
  ∀ j, j < n → eepromWindow s.bus (Width.word.align (wordAt start j)) false = false

/-- Every word of a block lies in plain storage. -/
def allPlain (start : Word) (n : Nat) : Prop :=
  ∀ j, j < n → storesPlainly (Width.word.align (wordAt start j)) .word = true

/-- The loads of a block: register `j` of the list gets word `j` as the bus gives it, not rotated (R336, R339). -/
def blockLoads (b : Bus) (r15 start : Word) (l : List Reg) : List (Reg × Word) :=
  l.zipIdx.map fun p => (p.1, readRaw b r15 (wordAt start p.2) .word)

/-- r15 at the loads of LDM: that of the instruction, unless the write-back went to r15 (R336, R343). -/
def r15AtLoads (s : State) (m : BlockMode) (rn : Reg) (final : Word) : Word :=
  if m.wback = true ∧ rn = 15#4 then alignPc s.thumb final else s.r15

/-- What STM stores for register `i` at position `j` of its list: with S the USER bank, for r15 4 more than it reads, and
from the second store on with the write-back already done (R337, R341, R342). -/
def stmData (s : State) (m : BlockMode) (rn : Reg) (final : Word) (j : Nat) (i : Reg) : Word :=
  let written := m.wback && decide (0 < j)
  let r := phys (if m.psr then .usr else s.mode) i
  if i = 15#4 then (if written ∧ rn = 15#4 then alignPc s.thumb final else s.r15) + 4#32
  else if written ∧ phys s.mode rn = r then final
  else s.cpu.regs.get r

/-- The words that STM stores, in order. -/
def stmWords (s : State) (m : BlockMode) (rn : Reg) (final : Word) (l : List Reg) : List Word :=
  l.zipIdx.map fun p => stmData s m rn final p.2 p.1

/-- What the stores of a block leave behind the bus: word `j` reads as the `j`-th of `words`, every byte of no such word
reads as before, and nothing but the memory changed. -/
structure BlockStore (s : State) (start : Word) (words : List Word) (t : State) : Prop where
  stored : ∀ j v, words[j]? = some v → ∀ r15, readRaw t.bus r15 (wordAt start j) .word = v
  others : ∀ r15 a, (∀ j, j < words.length → ¬ storedByte (wordAt start j) .word a) →
    readRaw t.bus r15 a .byte = readRaw s.bus r15 a .byte
  rest : { t.bus with mem := s.bus.mem } = s.bus

/-! ## Backup devices -/

/-- A command byte after its guard sequence (`21_backup.md` R144, R146). -/
def flashCommand (f : Flash) (v : Byte) : Flash :=
  ((f.writeByte 0x5555 0xAA#8).writeByte 0x2AAA 0x55#8).writeByte 0x5555 v

/-- The number that bits give, the first most significant (`21_backup.md` R161). -/
def bitsValue (l : List Bool) : Nat :=
  l.foldl (fun n bit => 2 * n + bit.toNat) 0

/-- The bits of a request that a DMA transfer writes one by one (`21_backup.md` R160). -/
def eepromRequest (e : Eeprom) (bits : List Bool) : Eeprom :=
  bits.foldl Eeprom.writeBit e

/-- The byte address that a request with `n` address bits names (`21_backup.md` R162). -/
def requestAddress (n : Nat) (bits : List Bool) : Nat :=
  8 * bitsValue ((bits.drop 2).take n) % 0x2000

/-- Byte `k` of the payload of a write request with `n` address bits (`21_backup.md` R162). -/
def requestPayload (n : Nat) (bits : List Bool) (k : Nat) : Byte :=
  BitVec.ofNat 8 (bitsValue ((bits.drop (2 + n + 8 * k)).take 8))

/-! ## FIFO service -/

/-- A channel armed for FIFO service: ENABLE = 1 and TIMING = 3 (`50_dma.md` R512). -/
def fifoArmed (d : DmaChannel) : Prop :=
  d.cntH.getLsbD 15 = true ∧ d.cntH.extractLsb' 12 2 = 3#2

/-- The signed step of a source by its mode, for a unit of `unit` bytes (`50_dma.md` R494). -/
def signedStep (mode : BitVec 2) (unit : Nat) : Int :=
  if mode = 1#2 then -unit else if mode = 2#2 then 0 else unit

/-- The channel after a FIFO service: its source moved by four words, all else as it was (`50_dma.md` R510, R512). -/
structure FifoServed (d e : DmaChannel) : Prop where
  src : e.src = d.src + BitVec.ofInt 32 (4 * signedStep (d.cntH.extractLsb' 7 2) 4)
  dst : e.dst = d.dst
  remaining : e.remaining = d.remaining
  cntH : e.cntH = d.cntH
  sad : e.sad = d.sad
  dad : e.dad = d.dad
  cntL : e.cntL = d.cntL

end Sys2Proof.Machine
end

