-- ==== Sys2Proof/Certificates/Slice0/Obligations.lean ====
section
/-! DEFINITION. The statements about GBA-CORE for the provers. Each docstring names the rules it formalises. -/

open Sys2Proof Sys2Proof.Machine

/-! ## Encoding -/

/-- Words written out in the spec decode to the instructions it names (`95_test_vectors.md`, R235, R276, R450, R470, R471). -/
def Obligations.DecodesSpecWords : Prop :=
  decodeArm 0xE3A00001#32 = .armMov .al false 0#4 (.imm 0#4 1#8) ∧
  decodeArm 0xE1500001#32 = .armCmp .al 0#4 (.shiftImm 1#4 .lsl 0#5) ∧
  decodeArm 0xE1B0F00E#32 = .armMov .al true 15#4 (.shiftImm 14#4 .lsl 0#5) ∧
  decodeArm 0xE25EF004#32 = .armSub .al true 14#4 15#4 (.imm 0#4 4#8) ∧
  decodeArm 0xE5910000#32 = .armLdr .al ⟨true, true, false⟩ 1#4 0#4 (.imm 0#12) ∧
  decodeArm 0xEAFFFFFE#32 = .armB .al 0xFFFFFE#24 ∧
  decodeThumb 0xB503#16 = .thumbPush true 0x03#8 ∧
  decodeThumb 0x46C0#16 = .thumbMovHi 8#4 8#4 ∧
  decodeThumb 0xD0FE#16 = .thumbBcond .eq 0xFE#8 ∧
  decodeThumb 0xE7FE#16 = .thumbB 0x7FE#11

/-- Every well-formed instruction, with every operand at every value, is what its encoding decodes to (R220-R258). -/
def Obligations.DecodeEncodeRoundTrip : Prop :=
  ∀ (i : Instr) (rest : List Byte), i.wellFormed = true → decode i.isThumb (encode i ++ rest) = .ok (i, rest)

/-- When the opcode at the program counter decodes to `i`, a running machine's step is `exec i` in the state after the two
fetches, then the accounting and the interrupt sample of phase 4; the fetches leave r15 two instructions past the one
executed (R30, R33, R34). The tally starts at 0, or with another `Cycles` at what that adds to the default (log entry 13). -/
def Obligations.StepRunsDecodedInstruction : Prop :=
  ∀ (s : State) (i : Instr), s.Running →
    let op := if s.cpu.latchValid then s.cpu.latchOp else fetchValue s.bus s.r15 s.fetchWidth
    let f := s.popReset.fetched
    decode s.thumb (if s.thumb then [lane op 0, lane op 1] else [lane op 0, lane op 1, lane op 2, lane op 3]) = .ok (i, []) →
    (∀ t, exec i f = .next t → step s = .next t.retire) ∧
    (∀ e, exec i f = .fault e → step s = .fault e) ∧
    (∀ e, exec i f = .refused e → step s = .refused e) ∧
    f.r15 = s.nextInstr + s.isize + s.isize ∧ f.cpu.cur = op ∧ f.cpu.latchValid = true ∧
    (s.bus.params.cycles = .default → f.cycles = 0) ∧
    (s.bus.params.cycles = .other → f.cycles = Config.cyclesAbove i s.popReset) ∧
    f.cpu.cpsr = s.cpu.cpsr ∧ f.cpu.spsr = s.cpu.spsr ∧ SameRegsBut [.r15] s f ∧
    f.bus.mem = s.bus.mem ∧ f.bus.io = s.bus.io ∧ f.bus.params = s.bus.params ∧ f.bus.flash = s.bus.flash

/-! ## Invariants and reset -/

/-- The invariant holds right after reset (R27, R29, R60). -/
def Obligations.InvAtReset : Prop := State.reset.Inv

/-- Every step keeps the invariant: a legal mode, an aligned r15, reserved bits clear, counters in range, stores of bytes in
canonical form, waitstate tables those of WAITCNT (R27, R29, R31, R44-R48, R114, R177, R185, R192, R196, R197, R199, R496). -/
def Obligations.InvKeptByStep : Prop :=
  ∀ s t : State, s.Inv → step s = .next t → t.Inv

/-- The reset input overrides everything: the next step is the reset state, with the parameters as they were (R60, R590,
R591). The mode SVC is the model's choice from R60's GK4 row (log entry 4). -/
def Obligations.ResetState : Prop :=
  ∀ s : State, s.resetLine = true → ∃ t, step s = .next t ∧
    t.r15 = 0#32 ∧ t.cpu.latchValid = false ∧ t.flagI = true ∧ t.flagF = true ∧ t.thumb = false ∧ t.mode = .svc ∧
    t.bus.run = .run ∧ t.fatal = none ∧ t.cycleCounter = 0 ∧ t.budgetCarry = 0 ∧
    t.bus.io.keyinput = 0x03FF#16 ∧ t.bus.io.ie = 0#16 ∧ t.bus.io.irf = 0#16 ∧ t.bus.io.ime = false ∧
    t.bus.io.waitcnt = 0#16 ∧ t.bus.io.vcount = 0 ∧ t.bus.io.dispstat = 0#16 ∧ t.bus.io.fifoA = 0 ∧ t.bus.io.fifoB = 0 ∧
    (∀ c, t.bus.io.dma.get c = ⟨0#32, 0#32, 0#16, 0#16, 0#32, 0#32, 0⟩) ∧
    (∀ c, t.bus.io.timer.get c = ⟨0#16, 0, 0#8, 0⟩) ∧
    (∀ a, backupReadByte t.bus a = 0#8) ∧ (∀ a, t.bus.flash.store.read a = 0#8) ∧ (∀ a, t.bus.eeprom.store.read a = 0#8) ∧
    t.bus.flash.mode = .idle ∧ t.bus.flash.used = false ∧ t.bus.eeprom.used = false ∧ t.bus.params = s.bus.params

/-! ## Conditions -/

/-- The condition table of R221, and what an instruction whose condition fails does: one cycle, nothing else. The Thumb
conditional branch obeys the same table. -/
def Obligations.ConditionalExecution : Prop :=
  (∀ s : State,
    (s.condPass .eq = s.flagZ ∧ s.condPass .ne = !s.flagZ) ∧ (s.condPass .cs = s.flagC ∧ s.condPass .cc = !s.flagC) ∧
    (s.condPass .mi = s.flagN ∧ s.condPass .pl = !s.flagN) ∧ (s.condPass .vs = s.flagV ∧ s.condPass .vc = !s.flagV) ∧
    (s.condPass .hi = true ↔ s.flagC = true ∧ s.flagZ = false) ∧ (s.condPass .ls = true ↔ s.flagC = false ∨ s.flagZ = true) ∧
    (s.condPass .ge = true ↔ s.flagN = s.flagV) ∧ (s.condPass .lt = true ↔ s.flagN ≠ s.flagV) ∧
    (s.condPass .gt = true ↔ s.flagZ = false ∧ s.flagN = s.flagV) ∧
    (s.condPass .le = true ↔ s.flagZ = true ∨ s.flagN ≠ s.flagV) ∧
    s.condPass .al = true ∧ s.condPass .nv = false) ∧
  (∀ (s : State) (i : Instr) (c : Cond), (instrCond i = some c ∨ ∃ off, i = .thumbBcond c off) → s.condPass c = false →
    exec i s = .next { s with cycles := s.cycles + 1 })

/-- After CMP the conditions compare the two operands, unsigned (EQ, NE, CS, CC, HI, LS) and signed (GE, LT, GT, LE)
(R221, R262, R274). -/
def Obligations.CompareThenConditions : Prop :=
  ∀ (s : State) (c : Cond) (rn : Reg) (o : Operand2), s.condPass c = true →
    let a := s.operand1 rn o
    let b := (s.operand2 o).1
    Completes (exec (.armCmp c rn o) s) fun t =>
      (t.condPass .eq = true ↔ a = b) ∧ (t.condPass .ne = true ↔ a ≠ b) ∧
      (t.condPass .cs = true ↔ b.toNat ≤ a.toNat) ∧ (t.condPass .cc = true ↔ a.toNat < b.toNat) ∧
      (t.condPass .hi = true ↔ b.toNat < a.toNat) ∧ (t.condPass .ls = true ↔ a.toNat ≤ b.toNat) ∧
      (t.condPass .ge = true ↔ b.toInt ≤ a.toInt) ∧ (t.condPass .lt = true ↔ a.toInt < b.toInt) ∧
      (t.condPass .gt = true ↔ b.toInt < a.toInt) ∧ (t.condPass .le = true ↔ a.toInt ≤ b.toInt)

/-! ## ARM data processing -/

/-- The barrel shifter in exact arithmetic (R260): immediate amounts with the special cases of 0, register amounts 0 to 255. -/
def Obligations.ShifterArithmetic : Prop :=
  (∀ (v : Word) (n : BitVec 5) (c : Bool),
    let k := if n = 0#5 then 32 else n.toNat
    (n = 0#5 → shiftImm .lsl v n c = (v, c)) ∧
    (n ≠ 0#5 → (shiftImm .lsl v n c).1.toNat = v.toNat * 2 ^ k % 2 ^ 32 ∧ (shiftImm .lsl v n c).2 = v.toNat.testBit (32 - k)) ∧
    (shiftImm .lsr v n c).1.toNat = v.toNat / 2 ^ k ∧ (shiftImm .lsr v n c).2 = v.toNat.testBit (k - 1) ∧
    (shiftImm .asr v n c).1.toInt = v.toInt / 2 ^ k ∧ (shiftImm .asr v n c).2 = v.toNat.testBit (k - 1) ∧
    (n = 0#5 → (shiftImm .ror v n c).1.toNat = c.toNat * 2 ^ 31 + v.toNat / 2 ∧ (shiftImm .ror v n c).2 = v.toNat.testBit 0) ∧
    (n ≠ 0#5 → (∀ j, j < 32 → (shiftImm .ror v n c).1.getLsbD j = v.getLsbD ((j + k) % 32)) ∧
      (shiftImm .ror v n c).2 = v.toNat.testBit (k - 1))) ∧
  (∀ (v : Word) (n : Byte) (c : Bool) (ty : ShiftType), n = 0#8 → shiftReg ty v n c = (v, c)) ∧
  (∀ (v : Word) (n : Byte) (c : Bool), n ≠ 0#8 →
    let k := n.toNat
    (shiftReg .lsl v n c).1.toNat = v.toNat * 2 ^ k % 2 ^ 32 ∧
    (shiftReg .lsl v n c).2 = (decide (k ≤ 32) && v.toNat.testBit (32 - k)) ∧
    (shiftReg .lsr v n c).1.toNat = v.toNat / 2 ^ k ∧
    (shiftReg .lsr v n c).2 = (decide (k ≤ 32) && v.toNat.testBit (k - 1)) ∧
    (shiftReg .asr v n c).1.toInt = v.toInt / 2 ^ k ∧ (shiftReg .asr v n c).2 = v.toNat.testBit (min k 32 - 1) ∧
    (∀ j, j < 32 → (shiftReg .ror v n c).1.getLsbD j = v.getLsbD ((j + k) % 32)) ∧
    (shiftReg .ror v n c).2 = v.toNat.testBit ((k - 1) % 32))

/-- The operand forms (R261, R263, R320-R322, R330): a rotated immediate and its carry, shifted registers, r15 read 4 further
by a register-specified shift and by a store. -/
def Obligations.OperandForms : Prop :=
  ∀ s : State,
    let ahead (i : Reg) : Word := if i = 15#4 then s.r15 + 4#32 else s.x i
    (∀ rot imm8, let v := ror (BitVec.ofNat 32 imm8.toNat) (2 * rot.toNat);
      s.operand2 (.imm rot imm8) = (v, if rot = 0#4 then s.flagC else v.msb)) ∧
    (∀ rm ty n, s.operand2 (.shiftImm rm ty n) = shiftImm ty (s.x rm) n s.flagC) ∧
    (∀ rm ty rs, s.operand2 (.shiftReg rm ty rs) = shiftReg ty (ahead rm) (lane (ahead rs) 0) s.flagC) ∧
    (∀ rn rot imm8, s.operand1 rn (.imm rot imm8) = s.x rn) ∧ (∀ rn rm ty n, s.operand1 rn (.shiftImm rm ty n) = s.x rn) ∧
    (∀ rn rm ty rs, s.operand1 rn (.shiftReg rm ty rs) = ahead rn) ∧
    (∀ imm12, s.offset12 (.imm imm12) = BitVec.ofNat 32 imm12.toNat) ∧
    (∀ rm ty n, s.offset12 (.reg rm ty n) = (shiftImm ty (s.x rm) n s.flagC).1) ∧
    (∀ imm8, s.offset8 (.imm imm8) = BitVec.ofNat 32 imm8.toNat) ∧ (∀ rm, s.offset8 (.reg rm) = s.x rm) ∧
    s.x 15#4 = s.r15 ∧ ∀ rd, s.storeData rd = ahead rd

/-- AND, EOR, ORR, BIC, MOV, MVN, ADD, ADC, SUB, SBC, RSB, RSC, in every operand form, write Rd (r15 too, which is then the
next instruction's address), set N, Z, C, V when S = 1 and Rd is not r15, and change nothing else (R262-R271, R277-R282). -/
def Obligations.DataProcessingResults : Prop :=
  ∀ (s : State) (c : Cond) (sb : Bool) (rn rd : Reg) (o : Operand2) (r : ResultRow), s.condPass c = true →
    (sb = true → rd ≠ 15#4) → r ∈ dataProcessingRows s c sb rn rd o →
    Completes (exec r.instr s) (RegisterEffect s [(rd, r.value)]
      (if sb then resultFlags r.value r.carry r.overflow else s.nzcv) (dataProcessingCycles rd o))

/-- TST, TEQ, CMP, CMN set N, Z, C, V and change nothing else (R262, R263, R272-R275, R281). -/
def Obligations.DataProcessingTests : Prop :=
  ∀ (s : State) (c : Cond) (rn : Reg) (o : Operand2) (r : ResultRow), s.condPass c = true →
    r ∈ testRows c rn o (s.operand1 rn o) (s.operand2 o).1 (s.operand2 o).2 s.flagV →
    Completes (exec r.instr s) (RegisterEffect s [] (resultFlags r.value r.carry r.overflow) (dataProcessingCycles 0#4 o))

/-- S = 1 with Rd = 15 returns from an exception (R27, R276): CPSR becomes the SPSR of the mode, pc the result aligned for
the new T; in USER and SYS CPSR stays; an SPSR that names no mode is fatal before any change. -/
def Obligations.DataProcessingReturns : Prop :=
  ∀ (s : State) (c : Cond) (rn : Reg) (o : Operand2) (r : ResultRow), s.condPass c = true →
    r ∈ dataProcessingRows s c true rn 15#4 o →
    (∀ p, s.cpu.spsr.get s.mode = some p → legalMode p = true →
      Completes (exec r.instr s) (BranchStep s [] r.value p (dataProcessingCycles 15#4 o))) ∧
    (s.cpu.spsr.get s.mode = none →
      Completes (exec r.instr s) (BranchStep s [] r.value s.cpu.cpsr (dataProcessingCycles 15#4 o))) ∧
    (∀ p, s.cpu.spsr.get s.mode = some p → legalMode p = false →
      EndsFatal r.instr s (.executeError s.cpu.cur s.thumb))

/-! ## Multiplies and status registers -/

/-- MUL and MLA (R300, R301, R306, R315): the exact product (sum) mod 2^32 to Rd; with S N and Z of it, C and V unchanged. -/
def Obligations.MultiplyShort : Prop :=
  ∀ (s : State) (c : Cond) (sb : Bool) (rd rn rs rm : Reg), s.condPass c = true →
    let m := multiplierCycles (s.x rs)
    let p := BitVec.ofNat 32 ((s.x rm).toNat * (s.x rs).toNat)
    let q := BitVec.ofNat 32 ((s.x rm).toNat * (s.x rs).toNat + (s.x rn).toNat)
    let flags (r : Word) := if sb then resultFlags r s.flagC s.flagV else s.nzcv
    Completes (exec (.armMul c sb rd rs rm) s) (RegisterEffect s [(rd, p)] (flags p) (1 + m)) ∧
    Completes (exec (.armMla c sb rd rn rs rm) s) (RegisterEffect s [(rd, q)] (flags q) (2 + m))

/-- UMULL, UMLAL, SMULL, SMLAL (R302-R306, R315): the exact 64-bit product (sum) mod 2^64, its low word to RdLo, then its
high word to RdHi; with S N and Z of the 64 bits, C and V unchanged. -/
def Obligations.MultiplyLong : Prop :=
  ∀ (s : State) (c : Cond) (sb : Bool) (hi low rs rm : Reg) (i : Instr) (p : BitVec 64) (k : Nat), s.condPass c = true →
    (i, p, k) ∈ longMultiplyRows s c sb hi low rs rm →
    Completes (exec i s) (RegisterEffect s
      [(low, BitVec.ofNat 32 (p.toNat % 2 ^ 32)), (hi, BitVec.ofNat 32 (p.toNat / 2 ^ 32))]
      (if sb then (p.msb, decide (p = 0#64), s.flagC, s.flagV) else s.nzcv) (k + multiplierCycles (s.x rs)))

/-- The multiplier term of R306 by the multiplier's signed value: upper bits all zeros or all ones. -/
def Obligations.MultiplierTerm : Prop :=
  ∀ v : Word,
    multiplierCycles v =
      if -2 ^ 8 ≤ v.toInt ∧ v.toInt < 2 ^ 8 then 1
      else if -2 ^ 16 ≤ v.toInt ∧ v.toInt < 2 ^ 16 then 2
      else if -2 ^ 24 ≤ v.toInt ∧ v.toInt < 2 ^ 24 then 3
      else 4

/-- MRS copies CPSR, or the SPSR of the mode, to Rd and changes no flag (R308). -/
def Obligations.MrsCopies : Prop :=
  ∀ (s : State) (c : Cond) (rd : Reg), s.condPass c = true →
    Completes (exec (.armMrs c false rd) s) (RegisterEffect s [(rd, s.cpu.cpsr)] s.nzcv 1) ∧
    ∀ p, s.cpu.spsr.get s.mode = some p →
      Completes (exec (.armMrs c true rd) s) (RegisterEffect s [(rd, p)] s.nzcv 1)

/-- MSR, register or immediate (R310-R313): bit `k` of the destination takes the operand's bit if its byte is selected; in
CPSR never T, and in USER mode only the flags byte; a CPSR that would name no mode is fatal. -/
def Obligations.MsrWritesFields : Prop :=
  ∀ (s : State) (c : Cond) (p : Bool) (fm : BitVec 4) (i : Instr) (v new : Word) (rm : Reg) (rot : BitVec 4) (imm8 : BitVec 8),
    s.condPass c = true →
    ((i, v) = (.armMsrReg c p fm rm, s.x rm) ∨
      (i, v) = (.armMsrImm c p fm rot imm8, ror (BitVec.ofNat 32 imm8.toNat) (2 * rot.toNat))) →
    (p = false →
      (∀ k, k < 32 → new.getLsbD k =
        if fm.getLsbD (k / 8) = true ∧ k ≠ 5 ∧ (s.mode = .usr → 24 ≤ k) then v.getLsbD k else s.cpu.cpsr.getLsbD k) →
      (legalMode new = true → Completes (exec i s) (StatusStep s new s.cpu.spsr)) ∧
      (legalMode new = false → EndsFatal i s (.executeError s.cpu.cur s.thumb))) ∧
    (p = true → ∀ old, s.cpu.spsr.get s.mode = some old →
      (∀ k, k < 32 → new.getLsbD k = if fm.getLsbD (k / 8) = true then v.getLsbD k else old.getLsbD k) →
      Completes (exec i s) (StatusStep s s.cpu.cpsr (s.cpu.spsr.set s.mode new)))

/-- The PSR-transfer words with bit 25 set and bit 21 clear are reserved: fatal ExecuteError(w, 0), nothing written (R314). The
same holds of MRS and MSR of an SPSR in a mode that has none, USER and SYS: the spec's own decision D18 (R309, R310). -/
def Obligations.PsrTransferFatal : Prop :=
  (∀ w : Word, w &&& 0x0FB00000#32 = 0x03000000#32 → decodeArm w = .armReservedPsr (Cond.ofBits (w.extractLsb' 28 4))) ∧
  ∀ (s : State) (c : Cond) (i : Instr) (rd rm : Reg) (fm rot : BitVec 4) (imm8 : BitVec 8), s.condPass c = true →
    s.thumb = false →
    (((s.mode = .usr ∨ s.mode = .sys) ∧
        i ∈ [.armMrs c true rd, .armMsrReg c true fm rm, .armMsrImm c true fm rot imm8]) ∨ i = .armReservedPsr c) →
    EndsFatal i s (.executeError s.cpu.cur false)

/-! ## ARM loads and stores -/

/-- LDR, LDRB, LDRH, LDRSB, LDRSH in every addressing form (R320, R323, R324, R329, R330, R332-R334): the write-back, then
Rd, so that a loaded base keeps the loaded value; no flag; behind the bus at most the EEPROM read index. -/
def Obligations.ArmLoads : Prop :=
  ∀ (s : State) (c : Cond) (ix : Indexing) (rn rd : Reg) (o : Offset12) (h : Offset8) (i : Instr) (k : LoadKind) (off : Word),
    s.condPass c = true → (i, k, off) ∈ armLoadRows s c ix rn rd o h →
    let addr := addressOf ix (s.x rn) off
    Completes (exec i s) (LoadStep s addr (k.width addr)
      (baseWrites ix rn (s.x rn) off ++ [(rd, loadedValue s k addr)]) (if rd = 15#4 then 5 else 3))

/-- STR, STRB, STRH in every addressing form (R320, R321, R325, R326, R329-R331): one access at the address with the data
read before the write-back, the write-back, no flag; the bytes that change are those of the access. -/
def Obligations.ArmStores : Prop :=
  ∀ (s : State) (c : Cond) (ix : Indexing) (rn rd : Reg) (o : Offset12) (h : Offset8) (i : Instr) (w : Width) (off : Word),
    s.condPass c = true → (i, w, off) ∈ armStoreRows s c ix rn rd o h →
    let addr := addressOf ix (s.x rn) off
    StoreReady s addr w →
    Completes (exec i s) (StoreStep s addr w (storedData s rd) (baseWrites ix rn (s.x rn) off) 2)

/-- Every instruction answers a next state, in every state that has met no refusal, except that a store may be refused for
the DMA enable edge that R506 leaves open (log entry 15): no instruction faults and no other refusal exists. Answering is
not completing: an instruction that meets a fatal condition answers the state with the fatal latch set, and the step after
it faults (the model's choice, log entry 16). -/
def Obligations.EveryInstructionAnswers : Prop :=
  ∀ (i : Instr) (s : State), s.bus.refusal = none →
    (∃ t, exec i s = .next t) ∨ (storesMemory i = true ∧ ∃ ch, exec i s = .refused (.dmaReentry ch))

/-- LDM without r15 and without S, in its four forms (R336, R339, R342-R344): the write-back, then each listed register gets
its word, lowest register from the lowest address, none rotated; nothing behind the bus changes. -/
def Obligations.LdmLoads : Prop :=
  ∀ (s : State) (c : Cond) (m : BlockMode) (rn : Reg) (list : BitVec 16), s.condPass c = true → m.psr = false →
    list.getLsbD 15 = false →
    let l := listedBelow 15 list
    let start := blockStartOf m (s.x rn) l.length
    let final := blockFinalOf m (s.x rn) l.length
    noEeprom s start l.length →
    Completes (exec (.armLdm c m rn list) s) (RegisterEffect s
      ((if m.wback then [(rn, final)] else []) ++ blockLoads s.bus (r15AtLoads s m rn final) start l) s.nzcv (l.length + 2))

/-- LDM with S and without r15 loads the USER bank, whatever the mode; the base is the current mode's (R340). -/
def Obligations.LdmUserBank : Prop :=
  ∀ (s : State) (c : Cond) (m : BlockMode) (rn : Reg) (list : BitVec 16), s.condPass c = true → m.psr = true →
    list.getLsbD 15 = false →
    let l := listedBelow 15 list
    let start := blockStartOf m (s.x rn) l.length
    let final := blockFinalOf m (s.x rn) l.length
    noEeprom s start l.length →
    Completes (exec (.armLdm c m rn list) s) fun t =>
      (∀ j i, l[j]? = some i →
        t.cpu.regs.get (phys .usr i) = readRaw s.bus (r15AtLoads s m rn final) (wordAt start j) .word) ∧
      (∀ p, p ≠ .r15 → (∀ i ∈ l, p ≠ phys .usr i) →
        t.cpu.regs.get p = if m.wback = true ∧ p = phys s.mode rn then final else s.cpu.regs.get p) ∧
      t.r15 = r15AtLoads s m rn final ∧
      t.cpu.latchValid = (s.cpu.latchValid && !(m.wback && decide (rn = 15#4))) ∧
      t.cpu.cpsr = s.cpu.cpsr ∧ t.cpu.spsr = s.cpu.spsr ∧ t.cycles = s.cycles + (l.length + 2) ∧ SameControl s t ∧ SameBus s t

/-- LDM with r15 in the list (R27, R336, R340, R344): the lower registers in the current mode's view, then pc; with S CPSR is
restored from the SPSR first (not in USER and SYS), and an SPSR that names no mode is fatal before any change (log entry 17). -/
def Obligations.LdmPc : Prop :=
  ∀ (s : State) (c : Cond) (m : BlockMode) (rn : Reg) (list : BitVec 16), s.condPass c = true → list.getLsbD 15 = true →
    let l := listedBelow 15 list
    let start := blockStartOf m (s.x rn) (l.length + 1)
    let final := blockFinalOf m (s.x rn) (l.length + 1)
    let r := r15AtLoads s m rn final
    let writes := (if m.wback then [(rn, final)] else []) ++ blockLoads s.bus r start l
    let v := readRaw s.bus r (wordAt start l.length) .word
    noEeprom s start (l.length + 1) →
    let returns (p : Word) (t : State) : Prop :=
      t.cpu.cpsr = p ∧ t.r15 = alignPc t.thumb v ∧ t.cpu.latchValid = false ∧
      (∀ q, q ≠ .r15 → (∀ w ∈ writes, q ≠ phys s.mode w.1) → t.cpu.regs.get q = s.cpu.regs.get q) ∧
      (∀ i u, i ≠ 15#4 → lastWrite writes i = some u → t.cpu.regs.get (phys s.mode i) = u) ∧
      t.cpu.spsr = s.cpu.spsr ∧ t.cycles = s.cycles + (l.length + 5) ∧ SameControl s t ∧ SameBus s t
    (m.psr = false →
      Completes (exec (.armLdm c m rn list) s) (RegisterEffect s (writes ++ [(15#4, v)]) s.nzcv (l.length + 5))) ∧
    (m.psr = true → ∀ p, s.cpu.spsr.get s.mode = some p → legalMode p = true →
      Completes (exec (.armLdm c m rn list) s) (returns p)) ∧
    (m.psr = true → s.cpu.spsr.get s.mode = none → Completes (exec (.armLdm c m rn list) s) (returns s.cpu.cpsr)) ∧
    (m.psr = true → ∀ p, s.cpu.spsr.get s.mode = some p → legalMode p = false →
      EndsFatal (.armLdm c m rn list) s (.executeError s.cpu.cur s.thumb))

/-- STM in its four forms, with and without S, into plain storage (R336-R339, R341-R344): word `j` of the block is the
`j`-th listed register's data, the base is written back once, no other byte changes. With an empty list and W = 1 the base is
rewritten with its own value, for Rn = 15 as a write of the pc: the model's reading of R338 (log entry 21). -/
def Obligations.StmStores : Prop :=
  ∀ (s : State) (c : Cond) (m : BlockMode) (rn : Reg) (list : BitVec 16), s.condPass c = true →
    s.bus.refusal = none → s.bus.mem.wf →
    let l := listedBelow 16 list
    let start := blockStartOf m (s.x rn) l.length
    let final := blockFinalOf m (s.x rn) l.length
    allPlain start l.length →
    Completes (exec (.armStm c m rn list) s) fun t =>
      Effect s (if m.wback then [(rn, final)] else []) s.nzcv (l.length + 1) t ∧
      BlockStore s start (stmWords s m rn final l) t

/-- SWP and SWPB (R345, R346): fatal Unimplemented, nothing written, unless the parameter SWP_IMPLEMENTED is true; then Rd
gets the old contents, the contents Rm, both accesses at the address in Rn. -/
def Obligations.SwapExchanges : Prop :=
  ∀ (s : State) (c : Cond) (rn rd rm : Reg) (i : Instr) (w : Width) (k : LoadKind), s.condPass c = true →
    (i, w, k) ∈ [(Instr.armSwp c rn rd rm, Width.word, LoadKind.word), (.armSwpb c rn rd rm, .byte, .byte)] →
    (s.bus.params.swpImplemented = false → EndsFatal i s (.unimplemented s.cpu.cur)) ∧
    (s.bus.params.swpImplemented = true → StoreReady s (s.x rn) w → eepromWindow s.bus (w.align (s.x rn)) false = false →
      Completes (exec i s) (StoreStep s (s.x rn) w (s.x rm) [(rd, loadedValue s k (s.x rn))] 4))

/-! ## Branches, exceptions, fatal words -/

/-- B and BL (R360, R361): their words; pc gets r15 + 4 x offset (signed); BL also writes the next instruction's address to
r14; the word 0xEAFFFFFE branches to itself. -/
def Obligations.BranchAndLink : Prop :=
  (∀ w : Word, (w &&& 0x0F000000#32 = 0x0A000000#32 →
      decodeArm w = .armB (Cond.ofBits (w.extractLsb' 28 4)) (w.extractLsb' 0 24)) ∧
    (w &&& 0x0F000000#32 = 0x0B000000#32 →
      decodeArm w = .armBl (Cond.ofBits (w.extractLsb' 28 4)) (w.extractLsb' 0 24))) ∧
  (∀ a : Word, a + 8#32 + BitVec.ofInt 32 (4 * (BitVec.extractLsb' 0 24 0xEAFFFFFE#32).toInt) = a) ∧
  ∀ (s : State) (c : Cond) (off : BitVec 24), s.condPass c = true →
    let target := s.r15 + BitVec.ofInt 32 (4 * off.toInt)
    Completes (exec (.armB c off) s) (BranchStep s [] target s.cpu.cpsr 3) ∧
    Completes (exec (.armBl c off) s) fun t =>
      BranchStep s [phys s.mode 14#4] target s.cpu.cpsr 3 t ∧ t.cpu.regs.get (phys s.mode 14#4) = s.r15 - 4#32

/-- BX in both states (R362, R410): T gets bit 0 of the register, pc the register aligned for the new T. -/
def Obligations.BranchExchange : Prop :=
  ∀ (s : State) (c : Cond) (rn : Reg) (i : Instr), (i = .armBx c rn ∧ s.condPass c = true ∨ i = .thumbBx rn) →
    Completes (exec i s) fun t =>
      t.thumb = (s.x rn).getLsbD 0 ∧ (∀ k, k ≠ 5 → t.cpu.cpsr.getLsbD k = s.cpu.cpsr.getLsbD k) ∧
      BranchStep s [] (s.x rn) t.cpu.cpsr 3 t

/-- SWI in both states and the Undefined class take their exceptions (R363, R365, R471, R531, R532): the saved address is
that of the next instruction. -/
def Obligations.SoftwareInterruptAndUndefined : Prop :=
  ∀ (s : State) (c : Cond) (comment : BitVec 24) (value : BitVec 8),
    (s.thumb = false → s.condPass c = true →
      Completes (exec (.armSwi c comment) s)
        (fun t => Entered s .softwareInterrupt (some (s.r15 - 4#32)) t ∧ t.cycles = s.cycles + 3) ∧
      Completes (exec (.armUnd c) s) (fun t => Entered s .undefined (some (s.r15 - 4#32)) t ∧ t.cycles = s.cycles + 3)) ∧
    (s.thumb = true →
      Completes (exec (.thumbSwi value) s)
        (fun t => Entered s .softwareInterrupt (some (s.r15 - 2#32)) t ∧ t.cycles = s.cycles + 3))

/-- Entering an exception, for every row of R532 (R531-R534): the return address of IRQ and FIQ is the next instruction plus
the parameter IRQ_LR_BIAS, of SWI and UND r15 less one instruction, of the aborts and the address exception r15 less 4 in
both states, of RESET none. Nothing raises the aborts and the address exception: their rows are the table's alone (log
entry 26). -/
def Obligations.ExceptionEntry : Prop :=
  ∀ (s : State) (e : Exception),
    let next := if s.cpu.latchValid then s.r15 - s.isize else s.r15
    let bias := if s.thumb then s.bus.params.irqLrBiasThumb else s.bus.params.irqLrBiasArm
    Entered s e
      (match e with
        | .reset => none
        | .undefined => some (s.r15 - s.isize)
        | .softwareInterrupt => some (s.r15 - s.isize)
        | .prefetchAbort => some (s.r15 - 4#32)
        | .dataAbort => some (s.r15 - 4#32)
        | .address26 => some (s.r15 - 4#32)
        | .irq => some (next + bias)
        | .fiq => some (next + bias))
      (s.enter e) ∧ (s.enter e).cycles = s.cycles

/-- `MOVS pc, lr` in the handler returns from SWI and UND to the next instruction, `SUBS pc, lr, #4` from IRQ and FIQ to the
instruction that was next, in the old state and mode (R536), from any state with a legal mode and an aligned r15, with
IRQ_LR_BIAS at its default 4. -/
def Obligations.ReturnUndoesEntry : Prop :=
  (∀ (s : State) (e : Exception), legalMode s.cpu.cpsr = true → alignPc s.thumb s.r15 = s.r15 → s.irqLrBias = 4#32 →
    (e = .irq ∨ e = .fiq) →
    Completes (exec (.armSub .al true 14#4 15#4 (.imm 0#4 4#8)) (s.enter e)) fun u =>
      u.cpu.cpsr = s.cpu.cpsr ∧ u.r15 = s.nextInstr ∧ u.cpu.latchValid = false ∧
      SameRegsBut [.r15, bank14 e.mode] s u ∧ SameBus s u) ∧
  ∀ (s : State) (c : Cond) (i : Instr) (comment : BitVec 24) (value : BitVec 8), legalMode s.cpu.cpsr = true →
    alignPc s.thumb s.r15 = s.r15 →
    (s.thumb = false ∧ s.condPass c = true ∧ (i = .armSwi c comment ∨ i = .armUnd c) ∨ s.thumb = true ∧ i = .thumbSwi value) →
    Completes (exec i s) fun t =>
      Completes (exec (.armMov .al true 15#4 (.shiftImm 14#4 .lsl 0#5)) t) fun u =>
        u.cpu.cpsr = s.cpu.cpsr ∧ u.r15 = s.r15 - s.isize ∧ u.cpu.latchValid = false ∧
        SameRegsBut [.r15, bank14 t.mode] s u ∧ SameBus s u

/-- The words that no class holds, the reserved positions of the halfword class and the coprocessor space decode to
instructions of their own (R233, R238, R241), which are fatal under their own names and write nothing (R335, R366, R476);
the step after a fatal condition, and every later one, faults (R37). -/
def Obligations.FatalWordsStop : Prop :=
  (∀ w : Word,
    let c := Cond.ofBits (w.extractLsb' 28 4)
    let rn := w.extractLsb' 16 4
    let rd := w.extractLsb' 12 4
    let ix : Indexing := ⟨w.getLsbD 24, w.getLsbD 23, w.getLsbD 21⟩
    let off : Offset8 := if w.getLsbD 22 then .imm (w.extractLsb' 8 4 ++ w.extractLsb' 0 4) else .reg (w.extractLsb' 0 4)
    (w &&& 0x0E1000F0#32 = 0x000000D0#32 → decodeArm w = .armLdrdPosition c ix rn rd off) ∧
    (w &&& 0x0E1000F0#32 = 0x000000F0#32 → decodeArm w = .armStrdPosition c ix rn rd off) ∧
    (w &&& 0x0E0000F0#32 = 0x00000090#32 → w &&& 0x0FC00000#32 ≠ 0x00000000#32 → w &&& 0x0F800000#32 ≠ 0x00800000#32 →
      w &&& 0x0FB00FF0#32 ≠ 0x01000090#32 → decodeArm w = .armReservedSh00 c) ∧
    (w &&& 0x0E000000#32 = 0x0C000000#32 → decodeArm w = .armNoClassCoprocTransfer c) ∧
    (w &&& 0x0F000000#32 = 0x0E000000#32 → decodeArm w = .armNoClassCoprocOperation c)) ∧
  (∀ h : BitVec 16, (h &&& 0xF800#16 = 0xE800#16 → decodeThumb h = .thumbNoClassE8) ∧
    (h &&& 0xF000#16 = 0xB000#16 → h &&& 0xFF00#16 ≠ 0xB000#16 → h &&& 0xF600#16 ≠ 0xB400#16 →
      decodeThumb h = .thumbNoClassB0)) ∧
  (∀ (s : State) (c : Cond) (ix : Indexing) (rn rd : Reg) (off : Offset8) (i : Instr) (f : Fault), s.thumb = false →
    s.condPass c = true →
    (i, f) ∈ [(Instr.armLdrdPosition c ix rn rd off, Fault.unimplemented s.cpu.cur),
      (.armStrdPosition c ix rn rd off, .unimplemented s.cpu.cur), (.armReservedSh00 c, .executeError s.cpu.cur false),
      (.armNoClassCoprocTransfer c, .decodeError s.cpu.cur false), (.armNoClassCoprocOperation c, .decodeError s.cpu.cur false)] →
    EndsFatal i s f) ∧
  (∀ (s : State) (i : Instr), s.thumb = true → i ∈ [Instr.thumbNoClassE8, .thumbNoClassB0] →
    EndsFatal i s (.decodeError s.cpu.cur true)) ∧
  (∀ (s : State) (f : Fault), s.fatal = some f → s.resetLine = false → s.bus.refusal = none → step s = .fault f) ∧
  (∀ (s t : State) (f : Fault), s.Running → exec s.popReset.currentInstr s.popReset.fetched = .next t → t.fatal = some f →
    step s = .next t)

/-! ## Thumb -/

/-- The Thumb shifts (R380-R382, R393-R395, R398, R411, R412): Rd, N, Z, C from the shifter, V unchanged, nothing else. -/
def Obligations.ThumbShifts : Prop :=
  ∀ (s : State) (imm5 : BitVec 5) (rs rd : LoReg) (i : Instr) (p : Word × Bool) (k : Nat),
    (i, p, k) ∈ thumbShiftRows s imm5 rs rd →
    Completes (exec i s) (RegisterEffect s [(lo rd, p.1)] (resultFlags p.1 p.2 s.flagV) k)

/-- Thumb formats 2 to 4 and CMP of format 5 (R383-R392, R396, R397, R399-R406, R408, R411, R412): Rd where the instruction
writes one, N, Z, C, V, nothing else. -/
def Obligations.ThumbAlu : Prop :=
  ∀ (s : State) (rn rs rd : LoReg) (hs hd : Reg) (imm3 : BitVec 3) (imm8 : BitVec 8),
    (∀ r ∈ thumbArithmeticRows s rn rs rd imm3 imm8 ++ thumbLogicalRows s rs rd imm8,
      Completes (exec r.instr s) (RegisterEffect s [(lo rd, r.value)] (resultFlags r.value r.carry r.overflow) 1)) ∧
    (∀ r ∈ thumbTestRows s rs rd hs hd imm8,
      Completes (exec r.instr s) (RegisterEffect s [] (resultFlags r.value r.carry r.overflow) 1)) ∧
    (let p := BitVec.ofNat 32 ((s.x (lo rd)).toNat * (s.x (lo rs)).toNat);
      Completes (exec (.thumbMul rs rd) s) (RegisterEffect s [(lo rd, p)] (resultFlags p s.flagC s.flagV)
        (1 + multiplierCycles (s.x (lo rd)))))

/-- Thumb ADD and MOV of format 5 and the address instructions (R407, R409, R411, R412, R420-R423): the destination, r15 too,
and no flag. -/
def Obligations.ThumbAddresses : Prop :=
  ∀ (s : State) (hd hs : Reg) (rd : LoReg) (imm8 : BitVec 8) (imm7 : BitVec 7) (i : Instr) (r : Reg) (v : Word),
    (i, r, v) ∈ thumbAddressRows s hd hs rd imm8 imm7 →
    Completes (exec i s) (RegisterEffect s [(r, v)] s.nzcv (if r = 15#4 then 3 else 1))

/-- The Thumb single loads (R430, R433, R434, R436-R438, R440, R442, R444, R446, R447). -/
def Obligations.ThumbLoads : Prop :=
  ∀ (s : State) (ro rb rd : LoReg) (imm5 : BitVec 5) (imm8 : BitVec 8) (i : Instr) (k : LoadKind) (addr : Word),
    (i, k, addr) ∈ thumbLoadRows s ro rb rd imm5 imm8 →
    Completes (exec i s) (LoadStep s addr (k.width addr) [(lo rd, loadedValue s k addr)] 3)

/-- The Thumb single stores (R431, R432, R435, R439, R441, R443, R445, R447). -/
def Obligations.ThumbStores : Prop :=
  ∀ (s : State) (ro rb rd : LoReg) (imm5 : BitVec 5) (imm8 : BitVec 8) (i : Instr) (w : Width) (addr : Word),
    (i, w, addr) ∈ thumbStoreRows s ro rb rd imm5 imm8 → StoreReady s addr w →
    Completes (exec i s) (StoreStep s addr w (s.x (lo rd)) [] 2)

/-- PUSH into plain storage (R450, R454, R455): the listed registers ascending, LR last, r13 moved down by 4 per word. -/
def Obligations.ThumbPush : Prop :=
  ∀ (s : State) (lr : Bool) (list : BitVec 8), s.bus.refusal = none → s.bus.mem.wf →
    let l := listedBelow 8 (list.setWidth 16) ++ if lr then [14#4] else []
    let sp := s.x 13#4 - BitVec.ofNat 32 (4 * l.length)
    allPlain sp l.length →
    Completes (exec (.thumbPush lr list) s) fun t =>
      Effect s [(13#4, sp)] s.nzcv (l.length + 1) t ∧ BlockStore s sp (l.map s.x) t

/-- POP (R451, R454, R455): the listed registers ascending, r13 moved up, then pc, which stays in Thumb state. -/
def Obligations.ThumbPop : Prop :=
  ∀ (s : State) (pc : Bool) (list : BitVec 8),
    let l := listedBelow 8 (list.setWidth 16)
    let n := l.length + pc.toNat
    noEeprom s (s.x 13#4) n →
    Completes (exec (.thumbPop pc list) s) (RegisterEffect s
      (blockLoads s.bus s.r15 (s.x 13#4) l ++ [(13#4, s.x 13#4 + BitVec.ofNat 32 (4 * n))] ++
        (if pc then [(15#4, readRaw s.bus s.r15 (wordAt (s.x 13#4) l.length) .word)] else []))
      s.nzcv (n + 2 + 2 * pc.toNat))

/-- STMIA into plain storage (R452, R454, R455): the base is written back after the first store, so a listed base that is not
the lowest register is stored already moved. -/
def Obligations.ThumbStmia : Prop :=
  ∀ (s : State) (rb : LoReg) (list : BitVec 8), s.bus.refusal = none → s.bus.mem.wf →
    let l := listedBelow 8 (list.setWidth 16)
    let final := s.x (lo rb) + BitVec.ofNat 32 (4 * l.length)
    allPlain (s.x (lo rb)) l.length →
    Completes (exec (.thumbStmia rb list) s) fun t =>
      Effect s [(lo rb, final)] s.nzcv (l.length + 1) t ∧
      BlockStore s (s.x (lo rb)) (l.zipIdx.map fun p => if p.1 = lo rb ∧ 0 < p.2 then final else s.x p.1) t

/-- LDMIA (R453-R455): the write-back first, then the registers, so a listed base keeps the loaded value. -/
def Obligations.ThumbLdmia : Prop :=
  ∀ (s : State) (rb : LoReg) (list : BitVec 8),
    let l := listedBelow 8 (list.setWidth 16)
    noEeprom s (s.x (lo rb)) l.length →
    Completes (exec (.thumbLdmia rb list) s) (RegisterEffect s
      ([(lo rb, s.x (lo rb) + BitVec.ofNat 32 (4 * l.length))] ++ blockLoads s.bus s.r15 (s.x (lo rb)) l) s.nzcv (l.length + 2))

/-- The Thumb branches (R470, R472, R474, R475): the conditional branch taken (condition AL too, the spec's decision D31), B, and
both halves of BL (one cycle for the first, decision D27); the words of B and of the second half, and the examples of R472
and R475. BX through a register that holds the link value returns in Thumb state to the next instruction (R410). -/
def Obligations.ThumbBranches : Prop :=
  (∀ h : BitVec 16, (h &&& 0xF800#16 = 0xE000#16 → decodeThumb h = .thumbB (h.extractLsb' 0 11)) ∧
    (h &&& 0xF800#16 = 0xF800#16 → decodeThumb h = .thumbBlSecond (h.extractLsb' 0 11))) ∧
  (∀ a : Word, a + 4#32 + BitVec.ofInt 32 (2 * (BitVec.extractLsb' 0 11 0xE7FE#16).toInt) = a) ∧
  (decodeThumb 0xF000#16 = .thumbBlFirst 0#11 ∧ decodeThumb 0xF802#16 = .thumbBlSecond 2#11 ∧
    ∀ s : State, s.thumb = true → s.r15 = 0x08000006#32 → s.x 14#4 = 0x08000004#32 →
      Completes (exec (.thumbBlSecond 2#11) s) fun t => t.r15 = 0x08000008#32 ∧ t.x 14#4 = 0x08000005#32) ∧
  ∀ (s : State) (c : Cond) (off8 : BitVec 8) (off11 : BitVec 11),
    (s.condPass c = true → Completes (exec (.thumbBcond c off8) s)
      (BranchStep s [] (s.r15 + BitVec.ofInt 32 (2 * off8.toInt)) s.cpu.cpsr 3)) ∧
    Completes (exec (.thumbB off11) s) (BranchStep s [] (s.r15 + BitVec.ofInt 32 (2 * off11.toInt)) s.cpu.cpsr 3) ∧
    Completes (exec (.thumbBlFirst off11) s)
      (RegisterEffect s [(14#4, s.r15 + BitVec.ofInt 32 (2 ^ 12 * off11.toInt))] s.nzcv 1) ∧
    Completes (exec (.thumbBlSecond off11) s) fun t =>
      BranchStep s [phys s.mode 14#4] (s.x 14#4 + BitVec.ofNat 32 (2 * off11.toNat)) s.cpu.cpsr 3 t ∧
      t.cpu.regs.get (phys s.mode 14#4) = (s.r15 - 2#32) ||| 1#32 ∧
      ∀ (u : State) (i : Instr), u.x 14#4 = t.x 14#4 → i ∈ [Instr.thumbBx 14#4, .armBx .al 14#4] →
        Completes (exec i u) fun v => v.thumb = true ∧ v.r15 = alignPc true (s.r15 - 2#32)

/-! ## The bus -/

/-- `MemRead` (R90): a word or halfword read at an address that is not aligned comes rotated right by 8 bits for each byte
of misalignment, over 32 bits. -/
def Obligations.LoadRotation : Prop :=
  ∀ (s : State) (a : Word),
    s.memRead a .word = (readRaw s.bus s.r15 a .word).rotateRight (8 * (a.toNat % 4)) ∧
    s.memRead a .half = (readRaw s.bus s.r15 a .half).rotateRight (8 * (a.toNat % 2)) ∧
    s.memRead a .byte = readRaw s.bus s.r15 a .byte ∧
    (readRaw s.bus s.r15 a .half).toNat < 2 ^ 16 ∧ (readRaw s.bus s.r15 a .byte).toNat < 2 ^ 8 ∧
    (readRaw s.bus s.r15 0x03000000#32 .word = 0xDEADBEEF#32 → s.memRead 0x03000001#32 .word = 0xEFDEADBE#32)

/-- A halfword or word read is the little-endian value of its bytes (R70, R89): everywhere but where one of its bytes lies in
the EEPROM window, beyond the ROM image and at unmapped addresses, where an access has a value of its own. -/
def Obligations.ReadsAreLittleEndian : Prop :=
  ∀ (b : Bus) (r15 a : Word) (w : Width),
    (∀ k, k < w.bytes → eepromWindow b (w.align a + BitVec.ofNat 32 k) false = false) → regionOf a ≠ .unmapped →
    (regionOf a = .rom → romIndex (w.align a) + w.bytes ≤ b.params.romSize) →
    (readRaw b r15 a w).toNat =
      ((List.range w.bytes).map fun k =>
        256 ^ k * (readRaw b r15 (w.align a + BitVec.ofNat 32 k) .byte).toNat).sum

/-- A value stored in plain storage, or a byte in SRAM that completes no Flash command, is read back at the same address
(R86, R91, R127, R143). The EEPROM takes one bit per bus write to its window (R160): a bit of the CPU only accumulates and
completes nothing, whatever `ee_req_len` holds (the model's reading of R160's prose, log entry 30), and a bit of a DMA unit
is `EepromWriteBit`. The last bit of a request that a transfer writes completes it (R161, R162): a read request of 9 or 17 bits captures its address for the serial read, a write request of 73 or 81 bits
stores its eight payload bytes at its address and leaves every other byte, and a request of another length or mode is
ignored. The four lengths and the place of the payload bytes are the spec's own (GK15, decision D25). -/
def Obligations.StoreLoadRoundTrip : Prop :=
  (∀ (s : State) (a v : Word) (w : Width), s.bus.mem.wf → storesPlainly (w.align a) w = true →
    (s.memWrite a w v).readRaw a w = BitVec.ofNat 32 (v.toNat % 256 ^ w.bytes)) ∧
  (∀ (b : Bus) (a : Nat) (v : Byte), b.mem.wf → b.flash.used = false → b.flash.idMode = false → b.flash.guard ≠ 2 →
    b.flash.mode = .idle → backupReadByte (backupWriteByte a v b) a = v) ∧
  (∀ (b : Bus) (r15 a v : Word) (w : Width), eepromWindow b (w.align a) true = true →
    let t := busWrite r15 a w v b
    t = { b with eeprom := t.eeprom } ∧ t.eeprom.used = true ∧
    t.eeprom.idx = (if b.eeprom.idx < 256 then b.eeprom.idx + 1 else b.eeprom.idx) ∧
    (∀ j, j < 256 → t.eeprom.buf.getLsbD j = if j = b.eeprom.idx then v.getLsbD 0 else b.eeprom.buf.getLsbD j) ∧
    { t.eeprom with used := b.eeprom.used, idx := b.eeprom.idx, buf := b.eeprom.buf } = b.eeprom) ∧
  (∀ (edge : Fin 4 → Bus → Bus) (r15 : Word) (c : Fin 4) (b : Bus),
    let d := b.io.dma.get c
    eepromWindow b (d.width.align d.dst) true = true →
    (dmaUnit edge r15 c b).eeprom =
      (afterRead b d.src d.width).eeprom.writeBit ((readRaw b r15 d.src d.width).getLsbD 0)) ∧
  ∀ (e : Eeprom) (bits : List Bool), e.store.wf → e.idx = 0 → e.reqLen = some bits.length → 0 < bits.length →
    bits.length ≤ 256 →
    let t := eepromRequest e bits
    let reads (n : Nat) : Prop := bits.take 2 = [true, true] ∧ bits.length = 2 + n + 1
    let writes (n : Nat) : Prop := bits.take 2 = [true, false] ∧ bits.length = 2 + n + 64 + 1
    t.used = true ∧ t.idx = 0 ∧ t.reqLen = e.reqLen ∧
    (∀ n, (n = 6 ∨ n = 14) → reads n →
      t.addrBits = some n ∧ t.addr.toNat = requestAddress n bits ∧ t.readAddr = t.addr ∧ t.readIdx = 0 ∧ t.store = e.store) ∧
    (∀ n, (n = 6 ∨ n = 14) → writes n →
      t.addrBits = some n ∧ t.addr.toNat = requestAddress n bits ∧ t.readAddr = e.readAddr ∧ t.readIdx = 68 ∧
      (∀ k, k < 8 → t.store.read (requestAddress n bits + k) = requestPayload n bits k) ∧
      ∀ i, (i < requestAddress n bits ∨ requestAddress n bits + 8 ≤ i) → t.store.read i = e.store.read i) ∧
    ((∀ n, (n = 6 ∨ n = 14) → ¬ reads n ∧ ¬ writes n) →
      t.addrBits = e.addrBits ∧ t.addr = e.addr ∧ t.readAddr = e.readAddr ∧ t.readIdx = e.readIdx ∧ t.store = e.store)

/-- The BIOS region (R72, R76): readable only while r15 lies in it, else the lanes of the last permitted fetch; data reads
leave that latch alone, a permitted fetch sets it; writes are ignored. -/
def Obligations.BiosProtection : Prop :=
  ∀ (b : Bus) (r15 a v : Word) (w : Width), regionOf a = .bios →
    let off := (w.align a).toNat
    ((off < 0x4000 ∧ r15.toNat < 0x4000) → ∀ k, k < w.bytes → lane (readRaw b r15 a w) k = b.params.bios.read (off + k)) ∧
    (¬ (off < 0x4000 ∧ r15.toNat < 0x4000) → ∀ k, k < w.bytes → lane (readRaw b r15 a w) k = lane b.biosBus (off % 4 + k)) ∧
    afterRead b a w = b ∧ busWrite r15 a w v b = b ∧
    (∀ f : Width, a.toNat < 0x4000 → f ≠ .byte →
      (afterFetch b a f).biosBus = readRaw b a (a &&& 0xFFFFFFFC#32) .word ∧ { afterFetch b a f with biosBus := b.biosBus } = b)

/-- Stores to the interrupt, waitstate, power, keypad, display, sound-control and timer registers (R171, R176-R178, R180,
R191-R193, R196-R201, R203, R204): write 1 to clear IF, masks, the BIOS gate of DISPCNT bit 3, the read-only flags of
DISPSTAT, read-only registers, POSTFLG and HALTCNT, KEYCNT read back, the FIFO resets of SOUNDCNT_H, a timer's reload value
apart from its counter, which alone is read, and the enabling of a timer, which reloads its counter and clears its
accumulator. -/
def Obligations.IoRegisterWrites : Prop :=
  ∀ (b : Bus) (r15 v : Word),
    busWrite r15 0x04000200#32 .half v b = { b with io := { b.io with ie := v.setWidth 16 &&& 0x3FFF#16 } } ∧
    busWrite r15 0x04000202#32 .half v b = { b with io := { b.io with irf := b.io.irf &&& ~~~v.setWidth 16 } } ∧
    busWrite r15 0x04000208#32 .half v b = { b with io := { b.io with ime := v.getLsbD 0 } } ∧
    busWrite r15 0x04000204#32 .half v b =
      { b with
        io := { b.io with waitcnt := v.setWidth 16 &&& 0x5FFF#16 }
        wait := WaitTables.compute b.params.regionBase (v.setWidth 16 &&& 0x5FFF#16) } ∧
    busWrite r15 0x04000301#32 .byte v b = { b with run := if v.getLsbD 7 then .stop else .halt } ∧
    busWrite r15 0x04000006#32 .half v b = b ∧ busWrite r15 0x04000130#32 .half v b = b ∧
    (∀ k, k < 16 → (busWrite r15 0x04000000#32 .half v b).io.dispcnt.getLsbD k =
      if k = 3 ∧ 0x4000 ≤ r15.toNat then b.io.dispcnt.getLsbD k else v.getLsbD k) ∧
    (let t := busWrite r15 0x04000004#32 .half v b;
      (∀ k, k < 16 → t.io.dispstat.getLsbD k =
        if (3 ≤ k ∧ k ≤ 5) ∨ 8 ≤ k then v.getLsbD k else b.io.dispstat.getLsbD k) ∧
      { t with io := { t.io with dispstat := b.io.dispstat } } = b) ∧
    busWrite r15 0x04000082#32 .half v b =
      { b with io := { b.io with
        soundcntH := v.setWidth 16 &&& 0x77FF#16
        fifoA := if v.getLsbD 11 then 0 else b.io.fifoA
        fifoB := if v.getLsbD 15 then 0 else b.io.fifoB } } ∧
    (let t := busWrite r15 0x04000132#32 .half v b;
      t = { b with io := { b.io with keycnt := v.setWidth 16 } } ∧
      (readRaw t r15 0x04000132#32 .half).toNat = v.toNat % 2 ^ 16) ∧
    busWrite r15 0x04000300#32 .byte v b = { b with io := { b.io with postflg := v.getLsbD 0 } } ∧
    (∀ t : Fin 4,
      let a := 0x04000100#32 + BitVec.ofNat 32 (4 * t.val)
      busWrite r15 a .half v b = updTimer t (fun x => { x with reload := v.setWidth 16 }) b ∧
      (readRaw b r15 a .half).toNat = (b.io.timer.get t).counter % 2 ^ 16) ∧
    (∀ t : Fin 4,
      let x := b.io.timer.get t
      let enables := x.control.getLsbD 7 = false ∧ v.getLsbD 7 = true
      busWrite r15 (0x04000102#32 + BitVec.ofNat 32 (4 * t.val)) .byte v b =
        updTimer t (fun x =>
          { x with
            control := v.setWidth 8 &&& 0xC7#8
            counter := if enables then x.reload.toNat else x.counter
            acc := if enables then 0 else x.acc }) b)

/-! ## DMA, timers, FIFO -/

/-- The enable edge of a DMA channel (R185, R186, R492, R493, R495): the channel is latched, and with a TIMING that is not
immediate nothing else changes; writes that make no edge, and writes of the low control byte, of which bits 4:0 are not
stored, change the stored bits alone. With TIMING 0 the whole run follows
inside the write (R499-R501): the EEPROM request of channel 3 is framed by the count and DMA_COST charged (log entry 14),
then every unit, then the completion; this is stated for destinations outside the I/O file, where no unit meets another
edge. As R516 has it, a run from EWRAM to OAM copies its words and changes no other byte of storage. -/
def Obligations.DmaEnableEdgeLatches : Prop :=
  (∀ (edge : Fin 4 → Bus → Bus) (b : Bus) (r15 : Word) (c : Fin 4) (v : Byte),
    ioWriteByte edge r15 (0x0BA + 12 * c.val) v b =
      updDma c (fun d => { d with cntH := d.cntH.extractLsb' 8 8 ++ (v &&& 0xE0#8) }) b) ∧
  (∀ (b : Bus) (r15 : Word) (c : Fin 4) (v : Byte),
    let d := b.io.dma.get c
    let cntH := v ++ d.cntH.extractLsb' 0 8
    let unit : Nat := if v.getLsbD 2 then 4 else 2
    let count := if d.cntL ≠ 0#16 then d.cntL.toNat else if c.val = 3 then 0x10000 else 0x4000
    let step := signedStep (d.cntH.extractLsb' 5 2) unit
    let dst := BitVec.ofNat 32 (d.dad.toNat / unit * unit)
    let latched := updDma c (fun d =>
      { d with cntH := cntH, src := BitVec.ofNat 32 (d.sad.toNat / unit * unit), dst := dst, remaining := count }) b
    let t := ioWriteByte (dmaEnableEdge r15) r15 (0x0BB + 12 * c.val) v b
    ((d.cntH.getLsbD 15 = true ∨ v.getLsbD 7 = false) → t = updDma c (fun d => { d with cntH := cntH }) b) ∧
    (d.cntH.getLsbD 15 = false → v.getLsbD 7 = true → v.extractLsb' 4 2 ≠ 0#2 → t = latched) ∧
    (d.cntH.getLsbD 15 = false → v.getLsbD 7 = true → v.extractLsb' 4 2 = 0#2 →
      (∀ k, k < count → regionOf (dst + BitVec.ofInt 32 (k * step)) ≠ .io) →
      ∀ edge, t = dmaComplete c (dmaUnits edge r15 c count
        { latched with
          dmaCycles := b.dmaCycles + dmaCost c count latched
          eeprom := if c = 3 then { b.eeprom with idx := 0, reqLen := some count } else b.eeprom }))) ∧
  ∀ (b : Bus) (r15 : Word) (n : Nat), b.mem.wf → (b.io.dma.get 0).cntH.getLsbD 15 = false → 0 < n → n ≤ 0x100 →
    let t := busWrite r15 0x040000BA#32 .half 0x8400#32 (busWrite r15 0x040000B8#32 .half (BitVec.ofNat 32 n)
      (busWrite r15 0x040000B4#32 .word 0x07000000#32 (busWrite r15 0x040000B0#32 .word 0x02000000#32 b)))
    let word (base : Word) (k : Nat) : Word := base + BitVec.ofNat 32 (4 * k)
    (∀ k, k < n → readRaw t r15 (word 0x07000000#32 k) .word = readRaw b r15 (word 0x02000000#32 k) .word) ∧
    (∀ k, n ≤ k → k < 0x100 → readRaw t r15 (word 0x07000000#32 k) .word = readRaw b r15 (word 0x07000000#32 k) .word) ∧
    (∀ a, regionOf a ≠ .oam → regionOf a ≠ .io → readRaw t r15 a .byte = readRaw b r15 a .byte) ∧
    t.io.dma.get 0 = ⟨0x02000000#32, 0x07000000#32, BitVec.ofNat 16 n, 0x0400#16, word 0x02000000#32 n,
      word 0x07000000#32 n, 0⟩ ∧
    (∀ c, c ≠ 0 → t.io.dma.get c = b.io.dma.get c) ∧
    { t with mem := b.mem, dmaCycles := b.dmaCycles, io := { t.io with dma := b.io.dma } } = b

/-- After `n` unit transfers whose destinations lie outside the I/O file, source and destination have moved by `n` signed
steps of their modes, or not at all when fixed (R494, R497-R499). -/
def Obligations.DmaUnitsAdvance : Prop :=
  ∀ (edge : Fin 4 → Bus → Bus) (r15 : Word) (c : Fin 4) (n : Nat) (b : Bus),
    let d := b.io.dma.get c
    let unit : Int := if d.cntH.getLsbD 10 then 4 else 2
    let step (mode : BitVec 2) : Int := if mode = 1#2 then -unit else if mode = 2#2 then 0 else unit
    (∀ k, k < n → regionOf (d.dst + BitVec.ofInt 32 (k * step (d.cntH.extractLsb' 5 2))) ≠ .io) →
    let e := (dmaUnits edge r15 c n b).io.dma.get c
    e.src = d.src + BitVec.ofInt 32 (n * step (d.cntH.extractLsb' 7 2)) ∧
    e.dst = d.dst + BitVec.ofInt 32 (n * step (d.cntH.extractLsb' 5 2)) ∧
    e.remaining = d.remaining - n ∧ e.cntH = d.cntH ∧ e.sad = d.sad ∧ e.dad = d.dad ∧ e.cntL = d.cntL

/-- The completion of a transfer (R504, R505): the interrupt if enabled; a repeating channel reloads its count, and its
destination in mode 3, and stays enabled; another is disabled; the source is never reloaded. With TIMING 0 no later trigger
runs the channel (the spec's own inference in R505 from R495 and R502). -/
def Obligations.DmaCompletion : Prop :=
  ∀ (c : Fin 4) (b : Bus),
    let d := b.io.dma.get c
    let t := dmaComplete c b
    let e := t.io.dma.get c
    (∀ k, k < 16 → t.io.irf.getLsbD k = (b.io.irf.getLsbD k || (decide (k = 8 + c.val) && d.cntH.getLsbD 14))) ∧
    e.src = d.src ∧ e.sad = d.sad ∧ e.dad = d.dad ∧ e.cntL = d.cntL ∧
    (d.cntH.getLsbD 9 = true →
      e.remaining = (if d.cntL ≠ 0#16 then d.cntL.toNat else if c.val = 3 then 0x10000 else 0x4000) ∧ e.cntH = d.cntH ∧
      (d.cntH.extractLsb' 5 2 = 3#2 → e.dst.toNat = d.dad.toNat / (if d.cntH.getLsbD 10 then 4 else 2) *
        (if d.cntH.getLsbD 10 then 4 else 2)) ∧
      (d.cntH.extractLsb' 5 2 ≠ 3#2 → e.dst = d.dst)) ∧
    (d.cntH.getLsbD 9 = false →
      e.dst = d.dst ∧ e.remaining = d.remaining ∧
      ∀ k, k < 16 → e.cntH.getLsbD k = if k = 15 then false else d.cntH.getLsbD k) ∧
    (∀ c', c' ≠ c → t.io.dma.get c' = b.io.dma.get c') ∧
    { t with io := { t.io with irf := b.io.irf, dma := b.io.dma } } = b ∧
    (d.cntH.extractLsb' 12 2 = 0#2 → ∀ r15, (∀ k, k ≠ 0#2 → dmaTriggerOne k r15 c t = t) ∧ ∀ reg, fifoDma r15 c reg t = t)

/-- One timer's turn in a batch of `d` cycles with `carry` overflows before it (R560-R562, R564, R565): off, counting cycles
through its prescaler, or cascading; at an overflow reload, the FIFO service of timers 0 and 1, interrupt and carry. Nothing
but the timer, the interrupt flag and what the service changes moves; a timer that clocks no FIFO has no service. -/
def Obligations.TimerBatch : Prop :=
  ∀ (r15 : Word) (d : Nat) (t : Fin 4) (b : Bus) (carry : Nat),
    let x := b.io.timer.get t
    let div := if x.control.extractLsb' 0 2 = 0#2 then 1 else if x.control.extractLsb' 0 2 = 1#2 then 64
      else if x.control.extractLsb' 0 2 = 2#2 then 256 else 1024
    let cascade := t.val ≠ 0 ∧ x.control.getLsbD 2 = true
    let count := x.counter + if cascade then carry else (x.acc + d) / div
    let overflows := 0xFFFF < count
    let y : Timer := { x with
      counter := if overflows then x.reload.toNat + (count - 0x10000) else count
      acc := if cascade then x.acc else (x.acc + d) % div }
    let counted := updTimer t (fun _ => y) b
    let served := if overflows ∧ t.val ≤ 1 then fifoTimerOverflow r15 t counted else counted
    let p := timerStep r15 d t (b, carry)
    (x.control.getLsbD 7 = false → p = (b, 0)) ∧
    (x.control.getLsbD 7 = true →
      p.1.io.timer.get t = y ∧ p.2 = (if overflows then 1 else 0) ∧
      (∀ k, k < 16 → p.1.io.irf.getLsbD k =
        (b.io.irf.getLsbD k || (decide (k = 3 + t.val) && decide overflows && x.control.getLsbD 6))) ∧
      (∀ t', t' ≠ t → p.1.io.timer.get t' = b.io.timer.get t') ∧
      { p.1 with io := { p.1.io with irf := b.io.irf } } = { served with io := { served.io with irf := b.io.irf } } ∧
      ((t.val ≤ 1 → (b.io.soundcntH.getLsbD 10).toNat ≠ t.val ∧ (b.io.soundcntH.getLsbD 14).toNat ≠ t.val) →
        { p.1 with io := { p.1.io with irf := b.io.irf, timer := b.io.timer } } = b))

/-- The overflow of the timer that clocks a FIFO (SOUNDCNT_H bit 10 for FIFO A, bit 14 for FIFO B) takes one byte and, at 16
bytes or fewer with the channel armed (1 for A, 2 for B), transfers four words to the FIFO's own register: 16 bytes more, the
source moved by four steps of 4, count, destination and control untouched, the other FIFO as it was; an overflow of the
other timer does nothing (R510-R512, R515). FIFO A comes first. -/
def Obligations.FifoService : Prop :=
  ∀ (r15 : Word) (t : Fin 4) (b : Bus),
    fifoTimerOverflow r15 t b = fifoOverflowB r15 t (fifoOverflowA r15 t b) ∧
    (let d := b.io.dma.get 1;
      let u := fifoOverflowA r15 t b;
      ((b.io.soundcntH.getLsbD 10).toNat ≠ t.val → u = b) ∧
      ((b.io.soundcntH.getLsbD 10).toNat = t.val → (fifoArmed d ∧ b.io.fifoA - 1 ≤ 16) →
        u.io.fifoA = min 32 (b.io.fifoA - 1 + 16) ∧ u.io.fifoB = b.io.fifoB ∧ FifoServed d (u.io.dma.get 1)) ∧
      ((b.io.soundcntH.getLsbD 10).toNat = t.val → ¬ (fifoArmed d ∧ b.io.fifoA - 1 ≤ 16) →
        u = { b with io := { b.io with fifoA := b.io.fifoA - 1 } })) ∧
    (let d := b.io.dma.get 2;
      let u := fifoOverflowB r15 t b;
      ((b.io.soundcntH.getLsbD 14).toNat ≠ t.val → u = b) ∧
      ((b.io.soundcntH.getLsbD 14).toNat = t.val → (fifoArmed d ∧ b.io.fifoB - 1 ≤ 16) →
        u.io.fifoB = min 32 (b.io.fifoB - 1 + 16) ∧ u.io.fifoA = b.io.fifoA ∧ FifoServed d (u.io.dma.get 2)) ∧
      ((b.io.soundcntH.getLsbD 14).toNat = t.val → ¬ (fifoArmed d ∧ b.io.fifoB - 1 ≤ 16) →
        u = { b with io := { b.io with fifoB := b.io.fifoB - 1 } }))

/-! ## Interrupts, HALT, the sequencer -/

/-- The sample after each instruction (R545, R547): FIQ if its line is up and F = 0; else IRQ if I = 0, IME = 1 and an enabled
flag is set; else nothing but the host's FIQ queue moves. Every executed step ends in the sample, after the timers; no other
step samples. That each sample takes one level from a queue of the host (log entry 11), that the time elapsed includes the
DMA_COST charged (log entry 14) and that a return is sampled in its own step (log entry 32) are the model's choices. -/
def Obligations.InterruptSample : Prop :=
  (∀ s t : State, exec s.currentInstr s.fetched = .next t → t.fatal = none →
    cpuStep s = .next (t.elapse (t.cycles + t.bus.dmaCycles)).irqSample) ∧
  (∀ s t : State, s.resetLine = false → (s.inBudget = false ∨ s.bus.run ≠ .run) → step s = .next t →
    t.cpu = s.cpu ∧ t.inputs.fiq = s.inputs.fiq) ∧
  ∀ s : State,
    let line := s.inputs.fiq.headD false
    let irq := s.flagI = false ∧ s.bus.io.ime = true ∧ s.bus.io.ie &&& s.bus.io.irf &&& 0x3FFF#16 ≠ 0#16
    ((line = true ∧ s.flagF = false) → s.irqSample = s.popFiq.enter .fiq) ∧
    (¬ (line = true ∧ s.flagF = false) → irq → s.irqSample = s.popFiq.enter .irq) ∧
    (¬ (line = true ∧ s.flagF = false) → ¬ irq → s.irqSample = s.popFiq) ∧
    s.popFiq = { s with inputs := { s.inputs with fiq := s.inputs.fiq.tail } }

/-- In HALT and STOP, inside a budget (R570, R571, R576): an enabled flag wakes the CPU, whatever IME and I, and no time
passes; otherwise one cycle passes for the timers and the counter, and the CPU does nothing. A FIFO service inside that cycle
adds its DMA_COST to counter and budget position (the model's choice, log entry 14). -/
def Obligations.HaltWakes : Prop :=
  ∀ s : State, s.Safe → s.resetLine = false → s.inBudget = true → s.bus.run ≠ .run →
    ∃ t, step s = .next t ∧ t.cpu = s.cpu ∧ t.fatal = none ∧ t.seq = s.seq ∧ t.budgetCarry = s.budgetCarry ∧
      (s.bus.io.ie &&& s.bus.io.irf &&& 0x3FFF#16 ≠ 0#16 →
        t.bus = { s.bus with run := .run } ∧ t.cycleCounter = s.cycleCounter ∧ t.budgetPos = s.budgetPos) ∧
      (s.bus.io.ie &&& s.bus.io.irf &&& 0x3FFF#16 = 0#16 →
        t.bus = timersAdvance s.r15 1 { s.bus with dmaCycles := 0 } ∧
        t.cycleCounter = s.cycleCounter + 1 + t.bus.dmaCycles ∧ t.budgetPos = s.budgetPos + 1 + t.bus.dmaCycles)

/-- One scanline's events (R502, R575, R577, R579). Its start clears HBLANK, tests the V-count match and its interrupt, and on
line 160 sets VBLANK, raises interrupt 0 if enabled and triggers the V-blank transfers; the end of the H-draw budget
triggers the H-blank transfers below line 160, sets HBLANK and raises interrupt 1 if enabled; a trigger runs the armed
channels of its timing in order; the line's end moves VCOUNT, and at the frame boundary clears VBLANK (the spec's decision
D40) and takes the host's keys. That KEYINPUT changes at the frame boundary alone, from a queue (log entry 11), where the
DMA_COST of the transfers goes (log entry 14) and the refusal of what R506 leaves open (log entry 15) are the model's
choices. -/
def Obligations.ScanlineEvents : Prop :=
  (∀ (k : BitVec 2) (r15 : Word) (b : Bus), dmaTrigger k r15 b =
    [0, 1, 2, 3].foldl (fun b (c : Fin 4) =>
      if (b.io.dma.get c).cntH.getLsbD 15 = true ∧ (b.io.dma.get c).cntH.extractLsb' 12 2 = k then dmaRun 4 [] r15 c b
      else b) b) ∧
  (∀ (s : State) (flags raised : BitVec 16), s.Safe → s.resetLine = false → s.seq = .lineStart →
    let io := s.bus.io
    let hit : Bool := decide (io.vcount = (io.dispstat.extractLsb' 8 8).toNat)
    let vblank : Bool := decide (io.vcount = 160)
    (∀ k, k < 16 → flags.getLsbD k =
      if k = 0 then vblank || io.dispstat.getLsbD 0 else if k = 1 then false else if k = 2 then hit
      else io.dispstat.getLsbD k) →
    (∀ k, k < 16 → raised.getLsbD k = (io.irf.getLsbD k || (decide (k = 2) && hit && io.dispstat.getLsbD 5) ||
      (decide (k = 0) && vblank && io.dispstat.getLsbD 3))) →
    let b := { s.bus with dmaCycles := 0, io := { io with dispstat := flags, irf := raised } }
    let u := if vblank then dmaTrigger 1#2 s.r15 b else b
    (u.refusal = none → Completes (step s) fun t =>
      t.cpu = s.cpu ∧ t.bus = u ∧ t.seq = .hDraw ∧ t.budgetPos = s.budgetCarry + u.dmaCycles ∧
      t.cycleCounter = s.cycleCounter ∧ t.inputs.keys = s.inputs.keys) ∧
    (∀ r, u.refusal = some r → step s = .refused r)) ∧
  (∀ (s : State) (flags raised : BitVec 16), s.Safe → s.resetLine = false → s.seq = .hDraw → 1006 ≤ s.budgetPos →
    let b := { s.bus with dmaCycles := 0 }
    let u := if s.bus.io.vcount < 160 then dmaTrigger 2#2 s.r15 b else b
    (∀ k, k < 16 → flags.getLsbD k = (decide (k = 1) || u.io.dispstat.getLsbD k)) →
    (∀ k, k < 16 → raised.getLsbD k = (u.io.irf.getLsbD k || (decide (k = 1) && u.io.dispstat.getLsbD 4))) →
    (u.refusal = none → Completes (step s) fun t =>
      t.cpu = s.cpu ∧ t.bus = { u with io := { u.io with dispstat := flags, irf := raised } } ∧ t.seq = .hBlank ∧
      t.budgetCarry = s.budgetPos - 1006 ∧ t.budgetPos = s.budgetPos - 1006 + u.dmaCycles ∧
      t.cycleCounter = s.cycleCounter ∧ t.inputs.keys = s.inputs.keys) ∧
    (∀ r, u.refusal = some r → step s = .refused r)) ∧
  (∀ s : State, s.Safe → s.resetLine = false → s.seq = .hBlank → 226 ≤ s.budgetPos →
    Completes (step s) fun t =>
      t.cpu = s.cpu ∧ t.seq = .lineStart ∧ t.budgetCarry = s.budgetPos - 226 ∧
      t.bus.io.vcount = (if s.bus.io.vcount + 1 = 228 then 0 else s.bus.io.vcount + 1) ∧
      (s.bus.io.vcount + 1 ≠ 228 → t.bus.io.dispstat = s.bus.io.dispstat ∧ t.inputs.keys = s.inputs.keys ∧
        t.bus.io.keyinput = s.bus.io.keyinput) ∧
      (s.bus.io.vcount + 1 = 228 → t.bus.io.dispstat.getLsbD 0 = false ∧ t.inputs.keys = s.inputs.keys.tail ∧
        ∀ v, s.inputs.keys.head? = some v → t.bus.io.keyinput = v &&& 0x03FF#16))

/-! ## Backup devices -/

/-- The Flash device behind the backup window (R82, R141, R142). A write that is pending stores the next byte as given in the
current bank, then the device is idle (R149). A command byte after its guard sequence has the effect of the table of R146,
whatever mode but a pending write the device was in, as long as no guard sequence was already complete (the first byte would
then be a command itself); chip erase sets every byte of both banks to 0xFF (R147). Programming a byte by the command 0xA0
leaves that byte at its address in the current bank and every other byte as it was. After ERASE, 0x30 under a guard erases
one sector of the current bank (R148); after BANK_SWITCH a byte at offset 0 selects the bank, one elsewhere leaves the
switch pending (R150). In id mode the first two bytes read as FLASH_ID (R141). The value 0xFF and the return to idle after
an erase are the spec's own (GK16, decision D24). -/
def Obligations.FlashCommands : Prop :=
  (∀ (b : Bus) (r15 a v : Word), regionOf a = .backup →
    busWrite r15 a .byte v b = backupWriteByte (a.toNat % 0x10000) (v.setWidth 8) b ∧
    (backupWriteByte (a.toNat % 0x10000) (v.setWidth 8) b).flash = b.flash.writeByte (a.toNat % 0x10000) (v.setWidth 8) ∧
    readRaw b r15 a .byte = (backupReadByte b (a.toNat % 0x10000)).setWidth 32) ∧
  (∀ (b : Bus) (a : Nat), backupReadByte b a =
    if b.flash.idMode = true ∧ a = 0 then b.params.flashManufacturer
    else if b.flash.idMode = true ∧ a = 1 then b.params.flashDevice
    else if b.flash.used = true then b.flash.store.read ((if b.flash.bank then 0x10000 else 0) + a)
    else b.mem.read (0x0E000000 + a)) ∧
  (∀ (f : Flash) (a : Nat) (v : Byte), f.store.wf → f.mode = .write →
    let g := f.writeByte a v
    g.store.read ((if f.bank then 0x10000 else 0) + a) = v ∧
    (∀ i, i ≠ (if f.bank then 0x10000 else 0) + a → g.store.read i = f.store.read i) ∧ g.mode = .idle) ∧
  (∀ (f : Flash) (v : Byte), f.store.wf → f.mode ≠ .write → f.guard ≠ 2 →
    let g := flashCommand f v
    g.mode = (if v = 0x80#8 then .erase else if v = 0xA0#8 then .write else if v = 0xB0#8 then .bankSwitch
      else if v = 0x10#8 ∧ f.mode = .erase then .idle else f.mode) ∧
    g.idMode = (if v = 0x90#8 then true else if v = 0xF0#8 then false else f.idMode) ∧
    (g.used = true ↔ f.used = true ∨ g.mode ≠ .idle ∨ g.idMode = true) ∧ g.bank = f.bank ∧ g.guard = 0 ∧
    (v = 0x10#8 → f.mode = .erase → ∀ i, g.store.read i = if i < 0x20000 then 0xFF#8 else f.store.read i) ∧
    (¬ (v = 0x10#8 ∧ f.mode = .erase) → g.store = f.store)) ∧
  (∀ (f : Flash) (a : Nat) (v : Byte), f.store.wf → f.mode ≠ .write → f.guard ≠ 2 →
    let g := (flashCommand f 0xA0#8).writeByte a v
    g.store.read (f.index a) = v ∧ (∀ i, i ≠ f.index a → g.store.read i = f.store.read i) ∧
    g.mode = .idle ∧ g.used = true ∧ g.guard = 0 ∧ g.bank = f.bank ∧ g.idMode = f.idMode) ∧
  (∀ (f : Flash) (a : Nat), f.store.wf → f.mode = .erase → f.guard = 2 → a < 0x10000 → a ≠ 0x5555 →
    let g := f.writeByte a 0x30#8
    let start := (if f.bank then 0x10000 else 0) + a / 0x1000 * 0x1000
    (∀ i, g.store.read i = if start ≤ i ∧ i < start + 0x1000 then 0xFF#8 else f.store.read i) ∧
    g.mode = .idle ∧ g.guard = 0 ∧ g.bank = f.bank ∧ g.used = f.used ∧ g.idMode = f.idMode) ∧
  ∀ (f : Flash) (a : Nat) (v : Byte), f.mode = .bankSwitch →
    let g := f.writeByte a v
    (a = 0 → g.bank = v.getLsbD 0 ∧ g.mode = .idle ∧ g.guard = 0) ∧
    (a ≠ 0 → f.guard ≠ 2 → g.bank = f.bank ∧ g.mode = .bankSwitch) ∧
    ((a = 0 ∨ f.guard ≠ 2) → g.store = f.store ∧ g.used = f.used ∧ g.idMode = f.idMode)

/-- Reading the EEPROM serially after a read request (R164): a bus read of any width in its window gives one bit and moves the
read index alone; four zeros, the 64 bits of the doubleword, most significant bit of each byte first, then ones. -/
def Obligations.EepromReadsSerially : Prop :=
  (∀ (b : Bus) (r15 a : Word) (w : Width), eepromWindow b (w.align a) false = true →
    readRaw b r15 a w = (if b.eeprom.readBit then 1#32 else 0#32) ∧
    afterRead b a w = { b with eeprom := { b.eeprom with
      readIdx := if b.eeprom.readIdx < 68 then b.eeprom.readIdx + 1 else b.eeprom.readIdx } }) ∧
  ∀ (e : Eeprom) (i : Nat), e.readIdx = 0 →
    (Eeprom.afterRead^[i] e).readBit =
      (if i < 4 then false
      else if i < 68 then (e.store.read (e.readAddr.toNat + (i - 4) / 8)).getLsbD (7 - (i - 4) % 8)
      else true)

/-! ## Privilege -/

/-- In USER mode no instruction but SWI and the Undefined class changes the mode, the interrupt masks, CPSR bits 23:8 or an
SPSR (R26, R27, R311, R312, R530). -/
def Obligations.UserModeIsConfined : Prop :=
  ∀ (i : Instr) (s t : State), s.cpu.cpsr.extractLsb' 0 5 = 0x10#5 → exec i s = .next t → raisesException i = false →
    t.mode = .usr ∧ t.cpu.spsr = s.cpu.spsr ∧ ∀ k, k < 24 → k ≠ 5 → t.cpu.cpsr.getLsbD k = s.cpu.cpsr.getLsbD k

/-! ## Flags -/

/-- Only the instructions that R28 lists write N, Z, C, V: data processing with S, multiplies with S, MSR, the LDM that restores
CPSR, the Thumb formats 1 to 4 and CMP of format 5; no other load, store, branch or exception entry does. -/
def Obligations.FlagsWrittenOnlyWhereListed : Prop :=
  ∀ (i : Instr) (s t : State), mayWriteFlags i = false → exec i s = .next t → t.nzcv = s.nzcv
end

