-- ==== Sys2Proof/Laws/Regs.lean ====
section
/-! SUPPORT. The laws of the register file, the live view and the SPSRs. -/

namespace Sys2Proof

@[simp] theorem Regs.get_set_same (rf : Regs) (p : PhysReg) (v : Word) : (rf.set p v).get p = v := by
  cases p <;> rfl

theorem Regs.get_set_other (rf : Regs) {p q : PhysReg} (h : q ≠ p) (v : Word) : (rf.set p v).get q = rf.get q := by
  cases p <;> cases q <;> first | rfl | exact absurd rfl h

theorem Regs.get_set (rf : Regs) (p q : PhysReg) (v : Word) : (rf.set p v).get q = if q = p then v else rf.get q := by
  split
  · subst_vars; simp
  · exact Regs.get_set_other rf (by assumption) v

theorem Regs.r15_set_other (rf : Regs) {p : PhysReg} (h : p ≠ .r15) (v : Word) : (rf.set p v).r15 = rf.r15 := by
  cases p <;> first | rfl | exact absurd rfl h

@[simp] theorem Regs.get_r15 (rf : Regs) : rf.get .r15 = rf.r15 := rfl

theorem Regs.ext_get {a b : Regs} (h : ∀ p, a.get p = b.get p) : a = b := by
  cases a; cases b
  simp only [Regs.mk.injEq]
  exact ⟨h .r0, h .r1, h .r2, h .r3, h .r4, h .r5, h .r6, h .r7, h .r8usr, h .r9usr, h .r10usr, h .r11usr, h .r12usr,
    h .r8fiq, h .r9fiq, h .r10fiq, h .r11fiq, h .r12fiq, h .r13usr, h .r14usr, h .r13fiq, h .r14fiq, h .r13irq,
    h .r14irq, h .r13svc, h .r14svc, h .r13abt, h .r14abt, h .r13und, h .r14und, h .r15⟩

/-- A register number other than 15 never names r15. -/
theorem phys_ne_r15 (m : Mode) {i : Reg} (h : i ≠ 15#4) : phys m i ≠ .r15 := by
  revert i; cases m <;> decide

@[simp] theorem phys_15 (m : Mode) : phys m 15#4 = .r15 := by
  cases m <;> rfl

/-- In one mode two register numbers name two registers. -/
theorem phys_inj (m : Mode) {i j : Reg} (h : phys m i = phys m j) : i = j := by
  revert i j; cases m <;> decide

/-- The SPSR just written is the one read, in the modes that have one. -/
theorem Spsrs.get_set_same (p : Spsrs) {m : Mode} (h : (p.get m).isSome) (v : Word) : (p.set m v).get m = some v := by
  cases m <;> simp_all [Spsrs.get, Spsrs.set]

theorem Spsrs.get_set_other (p : Spsrs) {m n : Mode} (h : n ≠ m) (v : Word) : (p.set m v).get n = p.get n := by
  cases m <;> cases n <;> first | rfl | exact absurd rfl h

@[simp] theorem Mode.ofBits_bits (m : Mode) : Mode.ofBits m.bits = some m := by
  cases m <;> rfl

theorem Mode.bits_of_ofBits {v : BitVec 5} {m : Mode} (h : Mode.ofBits v = some m) : m.bits = v := by
  revert v; cases m <;> decide

end Sys2Proof
end

