-- ==== Sys2Proof/Laws/State.lean ====
section
/-! SUPPORT. One lemma per update and field that the update leaves alone, and the value of the fields it writes. -/

namespace Sys2Proof.Machine

@[simp] theorem State.setCpsr_bus (s : State) (v : Word) : (s.setCpsr v).bus = s.bus := rfl
@[simp] theorem State.setCpsr_fatal (s : State) (v : Word) : (s.setCpsr v).fatal = s.fatal := rfl
@[simp] theorem State.setCpsr_cycles (s : State) (v : Word) : (s.setCpsr v).cycles = s.cycles := rfl
@[simp] theorem State.setCpsr_cycleCounter (s : State) (v : Word) : (s.setCpsr v).cycleCounter = s.cycleCounter := rfl
@[simp] theorem State.setCpsr_budgetCarry (s : State) (v : Word) : (s.setCpsr v).budgetCarry = s.budgetCarry := rfl
@[simp] theorem State.setCpsr_seq (s : State) (v : Word) : (s.setCpsr v).seq = s.seq := rfl
@[simp] theorem State.setCpsr_budgetPos (s : State) (v : Word) : (s.setCpsr v).budgetPos = s.budgetPos := rfl
@[simp] theorem State.setCpsr_inputs (s : State) (v : Word) : (s.setCpsr v).inputs = s.inputs := rfl
@[simp] theorem State.setCpsr_regs (s : State) (v : Word) : (s.setCpsr v).cpu.regs = s.cpu.regs := rfl
@[simp] theorem State.setCpsr_spsr (s : State) (v : Word) : (s.setCpsr v).cpu.spsr = s.cpu.spsr := rfl
@[simp] theorem State.setCpsr_latchValid (s : State) (v : Word) : (s.setCpsr v).cpu.latchValid = s.cpu.latchValid := rfl
@[simp] theorem State.setCpsr_latchOp (s : State) (v : Word) : (s.setCpsr v).cpu.latchOp = s.cpu.latchOp := rfl
@[simp] theorem State.setCpsr_cur (s : State) (v : Word) : (s.setCpsr v).cpu.cur = s.cpu.cur := rfl

@[simp] theorem State.setPhys_bus (s : State) (p : PhysReg) (v : Word) : (s.setPhys p v).bus = s.bus := rfl
@[simp] theorem State.setPhys_fatal (s : State) (p : PhysReg) (v : Word) : (s.setPhys p v).fatal = s.fatal := rfl
@[simp] theorem State.setPhys_cycles (s : State) (p : PhysReg) (v : Word) : (s.setPhys p v).cycles = s.cycles := rfl
@[simp] theorem State.setPhys_cycleCounter (s : State) (p : PhysReg) (v : Word) : (s.setPhys p v).cycleCounter = s.cycleCounter := rfl
@[simp] theorem State.setPhys_budgetCarry (s : State) (p : PhysReg) (v : Word) : (s.setPhys p v).budgetCarry = s.budgetCarry := rfl
@[simp] theorem State.setPhys_seq (s : State) (p : PhysReg) (v : Word) : (s.setPhys p v).seq = s.seq := rfl
@[simp] theorem State.setPhys_budgetPos (s : State) (p : PhysReg) (v : Word) : (s.setPhys p v).budgetPos = s.budgetPos := rfl
@[simp] theorem State.setPhys_inputs (s : State) (p : PhysReg) (v : Word) : (s.setPhys p v).inputs = s.inputs := rfl
@[simp] theorem State.setPhys_cpsr (s : State) (p : PhysReg) (v : Word) : (s.setPhys p v).cpu.cpsr = s.cpu.cpsr := rfl
@[simp] theorem State.setPhys_spsr (s : State) (p : PhysReg) (v : Word) : (s.setPhys p v).cpu.spsr = s.cpu.spsr := rfl
@[simp] theorem State.setPhys_latchValid (s : State) (p : PhysReg) (v : Word) : (s.setPhys p v).cpu.latchValid = s.cpu.latchValid := rfl
@[simp] theorem State.setPhys_latchOp (s : State) (p : PhysReg) (v : Word) : (s.setPhys p v).cpu.latchOp = s.cpu.latchOp := rfl
@[simp] theorem State.setPhys_cur (s : State) (p : PhysReg) (v : Word) : (s.setPhys p v).cpu.cur = s.cpu.cur := rfl

@[simp] theorem State.writePc_bus (s : State) (v : Word) : (s.writePc v).bus = s.bus := rfl
@[simp] theorem State.writePc_fatal (s : State) (v : Word) : (s.writePc v).fatal = s.fatal := rfl
@[simp] theorem State.writePc_cycles (s : State) (v : Word) : (s.writePc v).cycles = s.cycles := rfl
@[simp] theorem State.writePc_cycleCounter (s : State) (v : Word) : (s.writePc v).cycleCounter = s.cycleCounter := rfl
@[simp] theorem State.writePc_budgetCarry (s : State) (v : Word) : (s.writePc v).budgetCarry = s.budgetCarry := rfl
@[simp] theorem State.writePc_seq (s : State) (v : Word) : (s.writePc v).seq = s.seq := rfl
@[simp] theorem State.writePc_budgetPos (s : State) (v : Word) : (s.writePc v).budgetPos = s.budgetPos := rfl
@[simp] theorem State.writePc_inputs (s : State) (v : Word) : (s.writePc v).inputs = s.inputs := rfl
@[simp] theorem State.writePc_cpsr (s : State) (v : Word) : (s.writePc v).cpu.cpsr = s.cpu.cpsr := rfl
@[simp] theorem State.writePc_spsr (s : State) (v : Word) : (s.writePc v).cpu.spsr = s.cpu.spsr := rfl
@[simp] theorem State.writePc_latchOp (s : State) (v : Word) : (s.writePc v).cpu.latchOp = s.cpu.latchOp := rfl
@[simp] theorem State.writePc_cur (s : State) (v : Word) : (s.writePc v).cpu.cur = s.cpu.cur := rfl

@[simp] theorem State.tally_bus (s : State) (k : Nat) : (s.tally k).bus = s.bus := rfl
@[simp] theorem State.tally_fatal (s : State) (k : Nat) : (s.tally k).fatal = s.fatal := rfl
@[simp] theorem State.tally_cycleCounter (s : State) (k : Nat) : (s.tally k).cycleCounter = s.cycleCounter := rfl
@[simp] theorem State.tally_budgetCarry (s : State) (k : Nat) : (s.tally k).budgetCarry = s.budgetCarry := rfl
@[simp] theorem State.tally_seq (s : State) (k : Nat) : (s.tally k).seq = s.seq := rfl
@[simp] theorem State.tally_budgetPos (s : State) (k : Nat) : (s.tally k).budgetPos = s.budgetPos := rfl
@[simp] theorem State.tally_inputs (s : State) (k : Nat) : (s.tally k).inputs = s.inputs := rfl
@[simp] theorem State.tally_regs (s : State) (k : Nat) : (s.tally k).cpu.regs = s.cpu.regs := rfl
@[simp] theorem State.tally_cpsr (s : State) (k : Nat) : (s.tally k).cpu.cpsr = s.cpu.cpsr := rfl
@[simp] theorem State.tally_spsr (s : State) (k : Nat) : (s.tally k).cpu.spsr = s.cpu.spsr := rfl
@[simp] theorem State.tally_latchValid (s : State) (k : Nat) : (s.tally k).cpu.latchValid = s.cpu.latchValid := rfl
@[simp] theorem State.tally_latchOp (s : State) (k : Nat) : (s.tally k).cpu.latchOp = s.cpu.latchOp := rfl
@[simp] theorem State.tally_cur (s : State) (k : Nat) : (s.tally k).cpu.cur = s.cpu.cur := rfl

@[simp] theorem State.afterRead_fatal (s : State) (a : Word) (w : Width) : (s.afterRead a w).fatal = s.fatal := rfl
@[simp] theorem State.afterRead_cycles (s : State) (a : Word) (w : Width) : (s.afterRead a w).cycles = s.cycles := rfl
@[simp] theorem State.afterRead_cycleCounter (s : State) (a : Word) (w : Width) : (s.afterRead a w).cycleCounter = s.cycleCounter := rfl
@[simp] theorem State.afterRead_budgetCarry (s : State) (a : Word) (w : Width) : (s.afterRead a w).budgetCarry = s.budgetCarry := rfl
@[simp] theorem State.afterRead_seq (s : State) (a : Word) (w : Width) : (s.afterRead a w).seq = s.seq := rfl
@[simp] theorem State.afterRead_budgetPos (s : State) (a : Word) (w : Width) : (s.afterRead a w).budgetPos = s.budgetPos := rfl
@[simp] theorem State.afterRead_inputs (s : State) (a : Word) (w : Width) : (s.afterRead a w).inputs = s.inputs := rfl
@[simp] theorem State.afterRead_regs (s : State) (a : Word) (w : Width) : (s.afterRead a w).cpu.regs = s.cpu.regs := rfl
@[simp] theorem State.afterRead_cpsr (s : State) (a : Word) (w : Width) : (s.afterRead a w).cpu.cpsr = s.cpu.cpsr := rfl
@[simp] theorem State.afterRead_spsr (s : State) (a : Word) (w : Width) : (s.afterRead a w).cpu.spsr = s.cpu.spsr := rfl
@[simp] theorem State.afterRead_latchValid (s : State) (a : Word) (w : Width) : (s.afterRead a w).cpu.latchValid = s.cpu.latchValid := rfl
@[simp] theorem State.afterRead_latchOp (s : State) (a : Word) (w : Width) : (s.afterRead a w).cpu.latchOp = s.cpu.latchOp := rfl
@[simp] theorem State.afterRead_cur (s : State) (a : Word) (w : Width) : (s.afterRead a w).cpu.cur = s.cpu.cur := rfl

@[simp] theorem State.memWrite_fatal (s : State) (a : Word) (w : Width) (v : Word) : (s.memWrite a w v).fatal = s.fatal := rfl
@[simp] theorem State.memWrite_cycles (s : State) (a : Word) (w : Width) (v : Word) : (s.memWrite a w v).cycles = s.cycles := rfl
@[simp] theorem State.memWrite_cycleCounter (s : State) (a : Word) (w : Width) (v : Word) : (s.memWrite a w v).cycleCounter = s.cycleCounter := rfl
@[simp] theorem State.memWrite_budgetCarry (s : State) (a : Word) (w : Width) (v : Word) : (s.memWrite a w v).budgetCarry = s.budgetCarry := rfl
@[simp] theorem State.memWrite_seq (s : State) (a : Word) (w : Width) (v : Word) : (s.memWrite a w v).seq = s.seq := rfl
@[simp] theorem State.memWrite_budgetPos (s : State) (a : Word) (w : Width) (v : Word) : (s.memWrite a w v).budgetPos = s.budgetPos := rfl
@[simp] theorem State.memWrite_inputs (s : State) (a : Word) (w : Width) (v : Word) : (s.memWrite a w v).inputs = s.inputs := rfl
@[simp] theorem State.memWrite_regs (s : State) (a : Word) (w : Width) (v : Word) : (s.memWrite a w v).cpu.regs = s.cpu.regs := rfl
@[simp] theorem State.memWrite_cpsr (s : State) (a : Word) (w : Width) (v : Word) : (s.memWrite a w v).cpu.cpsr = s.cpu.cpsr := rfl
@[simp] theorem State.memWrite_spsr (s : State) (a : Word) (w : Width) (v : Word) : (s.memWrite a w v).cpu.spsr = s.cpu.spsr := rfl
@[simp] theorem State.memWrite_latchValid (s : State) (a : Word) (w : Width) (v : Word) : (s.memWrite a w v).cpu.latchValid = s.cpu.latchValid := rfl
@[simp] theorem State.memWrite_latchOp (s : State) (a : Word) (w : Width) (v : Word) : (s.memWrite a w v).cpu.latchOp = s.cpu.latchOp := rfl
@[simp] theorem State.memWrite_cur (s : State) (a : Word) (w : Width) (v : Word) : (s.memWrite a w v).cpu.cur = s.cpu.cur := rfl

@[simp] theorem State.setNZCV_bus (s : State) (n z c v : Bool) : (s.setNZCV n z c v).bus = s.bus := rfl
@[simp] theorem State.setNZCV_fatal (s : State) (n z c v : Bool) : (s.setNZCV n z c v).fatal = s.fatal := rfl
@[simp] theorem State.setNZCV_cycles (s : State) (n z c v : Bool) : (s.setNZCV n z c v).cycles = s.cycles := rfl
@[simp] theorem State.setNZCV_cycleCounter (s : State) (n z c v : Bool) : (s.setNZCV n z c v).cycleCounter = s.cycleCounter := rfl
@[simp] theorem State.setNZCV_budgetCarry (s : State) (n z c v : Bool) : (s.setNZCV n z c v).budgetCarry = s.budgetCarry := rfl
@[simp] theorem State.setNZCV_seq (s : State) (n z c v : Bool) : (s.setNZCV n z c v).seq = s.seq := rfl
@[simp] theorem State.setNZCV_budgetPos (s : State) (n z c v : Bool) : (s.setNZCV n z c v).budgetPos = s.budgetPos := rfl
@[simp] theorem State.setNZCV_inputs (s : State) (n z c v : Bool) : (s.setNZCV n z c v).inputs = s.inputs := rfl
@[simp] theorem State.setNZCV_regs (s : State) (n z c v : Bool) : (s.setNZCV n z c v).cpu.regs = s.cpu.regs := rfl
@[simp] theorem State.setNZCV_spsr (s : State) (n z c v : Bool) : (s.setNZCV n z c v).cpu.spsr = s.cpu.spsr := rfl
@[simp] theorem State.setNZCV_latchValid (s : State) (n z c v : Bool) : (s.setNZCV n z c v).cpu.latchValid = s.cpu.latchValid := rfl
@[simp] theorem State.setNZCV_latchOp (s : State) (n z c v : Bool) : (s.setNZCV n z c v).cpu.latchOp = s.cpu.latchOp := rfl
@[simp] theorem State.setNZCV_cur (s : State) (n z c v : Bool) : (s.setNZCV n z c v).cpu.cur = s.cpu.cur := rfl

@[simp] theorem State.setResultFlags_bus (s : State) (r : Word) (c v : Bool) : (s.setResultFlags r c v).bus = s.bus := rfl
@[simp] theorem State.setResultFlags_fatal (s : State) (r : Word) (c v : Bool) : (s.setResultFlags r c v).fatal = s.fatal := rfl
@[simp] theorem State.setResultFlags_cycles (s : State) (r : Word) (c v : Bool) : (s.setResultFlags r c v).cycles = s.cycles := rfl
@[simp] theorem State.setResultFlags_cycleCounter (s : State) (r : Word) (c v : Bool) : (s.setResultFlags r c v).cycleCounter = s.cycleCounter := rfl
@[simp] theorem State.setResultFlags_budgetCarry (s : State) (r : Word) (c v : Bool) : (s.setResultFlags r c v).budgetCarry = s.budgetCarry := rfl
@[simp] theorem State.setResultFlags_seq (s : State) (r : Word) (c v : Bool) : (s.setResultFlags r c v).seq = s.seq := rfl
@[simp] theorem State.setResultFlags_budgetPos (s : State) (r : Word) (c v : Bool) : (s.setResultFlags r c v).budgetPos = s.budgetPos := rfl
@[simp] theorem State.setResultFlags_inputs (s : State) (r : Word) (c v : Bool) : (s.setResultFlags r c v).inputs = s.inputs := rfl
@[simp] theorem State.setResultFlags_regs (s : State) (r : Word) (c v : Bool) : (s.setResultFlags r c v).cpu.regs = s.cpu.regs := rfl
@[simp] theorem State.setResultFlags_spsr (s : State) (r : Word) (c v : Bool) : (s.setResultFlags r c v).cpu.spsr = s.cpu.spsr := rfl
@[simp] theorem State.setResultFlags_latchValid (s : State) (r : Word) (c v : Bool) : (s.setResultFlags r c v).cpu.latchValid = s.cpu.latchValid := rfl
@[simp] theorem State.setResultFlags_latchOp (s : State) (r : Word) (c v : Bool) : (s.setResultFlags r c v).cpu.latchOp = s.cpu.latchOp := rfl
@[simp] theorem State.setResultFlags_cur (s : State) (r : Word) (c v : Bool) : (s.setResultFlags r c v).cpu.cur = s.cpu.cur := rfl

@[simp] theorem State.setNZ_bus (s : State) (r : Word) : (s.setNZ r).bus = s.bus := rfl
@[simp] theorem State.setNZ_fatal (s : State) (r : Word) : (s.setNZ r).fatal = s.fatal := rfl
@[simp] theorem State.setNZ_cycles (s : State) (r : Word) : (s.setNZ r).cycles = s.cycles := rfl
@[simp] theorem State.setNZ_cycleCounter (s : State) (r : Word) : (s.setNZ r).cycleCounter = s.cycleCounter := rfl
@[simp] theorem State.setNZ_budgetCarry (s : State) (r : Word) : (s.setNZ r).budgetCarry = s.budgetCarry := rfl
@[simp] theorem State.setNZ_seq (s : State) (r : Word) : (s.setNZ r).seq = s.seq := rfl
@[simp] theorem State.setNZ_budgetPos (s : State) (r : Word) : (s.setNZ r).budgetPos = s.budgetPos := rfl
@[simp] theorem State.setNZ_inputs (s : State) (r : Word) : (s.setNZ r).inputs = s.inputs := rfl
@[simp] theorem State.setNZ_regs (s : State) (r : Word) : (s.setNZ r).cpu.regs = s.cpu.regs := rfl
@[simp] theorem State.setNZ_spsr (s : State) (r : Word) : (s.setNZ r).cpu.spsr = s.cpu.spsr := rfl
@[simp] theorem State.setNZ_latchValid (s : State) (r : Word) : (s.setNZ r).cpu.latchValid = s.cpu.latchValid := rfl
@[simp] theorem State.setNZ_latchOp (s : State) (r : Word) : (s.setNZ r).cpu.latchOp = s.cpu.latchOp := rfl
@[simp] theorem State.setNZ_cur (s : State) (r : Word) : (s.setNZ r).cpu.cur = s.cpu.cur := rfl

@[simp] theorem State.enter_bus (s : State) (e : Exception) : (s.enter e).bus = s.bus := rfl
@[simp] theorem State.enter_fatal (s : State) (e : Exception) : (s.enter e).fatal = s.fatal := rfl
@[simp] theorem State.enter_cycles (s : State) (e : Exception) : (s.enter e).cycles = s.cycles := rfl
@[simp] theorem State.enter_cycleCounter (s : State) (e : Exception) : (s.enter e).cycleCounter = s.cycleCounter := rfl
@[simp] theorem State.enter_budgetCarry (s : State) (e : Exception) : (s.enter e).budgetCarry = s.budgetCarry := rfl
@[simp] theorem State.enter_seq (s : State) (e : Exception) : (s.enter e).seq = s.seq := rfl
@[simp] theorem State.enter_budgetPos (s : State) (e : Exception) : (s.enter e).budgetPos = s.budgetPos := rfl
@[simp] theorem State.enter_inputs (s : State) (e : Exception) : (s.enter e).inputs = s.inputs := rfl
@[simp] theorem State.enter_latchOp (s : State) (e : Exception) : (s.enter e).cpu.latchOp = s.cpu.latchOp := rfl
@[simp] theorem State.enter_cur (s : State) (e : Exception) : (s.enter e).cpu.cur = s.cpu.cur := rfl

@[simp] theorem State.setX_bus (s : State) (i : Reg) (v : Word) : (s.setX i v).bus = s.bus := by unfold State.setX; split <;> rfl
@[simp] theorem State.setX_fatal (s : State) (i : Reg) (v : Word) : (s.setX i v).fatal = s.fatal := by unfold State.setX; split <;> rfl
@[simp] theorem State.setX_cycles (s : State) (i : Reg) (v : Word) : (s.setX i v).cycles = s.cycles := by unfold State.setX; split <;> rfl
@[simp] theorem State.setX_cycleCounter (s : State) (i : Reg) (v : Word) : (s.setX i v).cycleCounter = s.cycleCounter := by unfold State.setX; split <;> rfl
@[simp] theorem State.setX_budgetCarry (s : State) (i : Reg) (v : Word) : (s.setX i v).budgetCarry = s.budgetCarry := by unfold State.setX; split <;> rfl
@[simp] theorem State.setX_seq (s : State) (i : Reg) (v : Word) : (s.setX i v).seq = s.seq := by unfold State.setX; split <;> rfl
@[simp] theorem State.setX_budgetPos (s : State) (i : Reg) (v : Word) : (s.setX i v).budgetPos = s.budgetPos := by unfold State.setX; split <;> rfl
@[simp] theorem State.setX_inputs (s : State) (i : Reg) (v : Word) : (s.setX i v).inputs = s.inputs := by unfold State.setX; split <;> rfl
@[simp] theorem State.setX_cpsr (s : State) (i : Reg) (v : Word) : (s.setX i v).cpu.cpsr = s.cpu.cpsr := by unfold State.setX; split <;> rfl
@[simp] theorem State.setX_spsr (s : State) (i : Reg) (v : Word) : (s.setX i v).cpu.spsr = s.cpu.spsr := by unfold State.setX; split <;> rfl
@[simp] theorem State.setX_latchOp (s : State) (i : Reg) (v : Word) : (s.setX i v).cpu.latchOp = s.cpu.latchOp := by unfold State.setX; split <;> rfl
@[simp] theorem State.setX_cur (s : State) (i : Reg) (v : Word) : (s.setX i v).cpu.cur = s.cpu.cur := by unfold State.setX; split <;> rfl

@[simp] theorem State.setXu_bus (s : State) (i : Reg) (v : Word) : (s.setXu i v).bus = s.bus := by unfold State.setXu; split <;> rfl
@[simp] theorem State.setXu_fatal (s : State) (i : Reg) (v : Word) : (s.setXu i v).fatal = s.fatal := by unfold State.setXu; split <;> rfl
@[simp] theorem State.setXu_cycles (s : State) (i : Reg) (v : Word) : (s.setXu i v).cycles = s.cycles := by unfold State.setXu; split <;> rfl
@[simp] theorem State.setXu_cycleCounter (s : State) (i : Reg) (v : Word) : (s.setXu i v).cycleCounter = s.cycleCounter := by unfold State.setXu; split <;> rfl
@[simp] theorem State.setXu_budgetCarry (s : State) (i : Reg) (v : Word) : (s.setXu i v).budgetCarry = s.budgetCarry := by unfold State.setXu; split <;> rfl
@[simp] theorem State.setXu_seq (s : State) (i : Reg) (v : Word) : (s.setXu i v).seq = s.seq := by unfold State.setXu; split <;> rfl
@[simp] theorem State.setXu_budgetPos (s : State) (i : Reg) (v : Word) : (s.setXu i v).budgetPos = s.budgetPos := by unfold State.setXu; split <;> rfl
@[simp] theorem State.setXu_inputs (s : State) (i : Reg) (v : Word) : (s.setXu i v).inputs = s.inputs := by unfold State.setXu; split <;> rfl
@[simp] theorem State.setXu_cpsr (s : State) (i : Reg) (v : Word) : (s.setXu i v).cpu.cpsr = s.cpu.cpsr := by unfold State.setXu; split <;> rfl
@[simp] theorem State.setXu_spsr (s : State) (i : Reg) (v : Word) : (s.setXu i v).cpu.spsr = s.cpu.spsr := by unfold State.setXu; split <;> rfl
@[simp] theorem State.setXu_latchOp (s : State) (i : Reg) (v : Word) : (s.setXu i v).cpu.latchOp = s.cpu.latchOp := by unfold State.setXu; split <;> rfl
@[simp] theorem State.setXu_cur (s : State) (i : Reg) (v : Word) : (s.setXu i v).cpu.cur = s.cpu.cur := by unfold State.setXu; split <;> rfl

@[simp] theorem State.restoreCpsr_bus (s : State) : (s.restoreCpsr).bus = s.bus := by unfold State.restoreCpsr; split <;> rfl
@[simp] theorem State.restoreCpsr_fatal (s : State) : (s.restoreCpsr).fatal = s.fatal := by unfold State.restoreCpsr; split <;> rfl
@[simp] theorem State.restoreCpsr_cycles (s : State) : (s.restoreCpsr).cycles = s.cycles := by unfold State.restoreCpsr; split <;> rfl
@[simp] theorem State.restoreCpsr_cycleCounter (s : State) : (s.restoreCpsr).cycleCounter = s.cycleCounter := by unfold State.restoreCpsr; split <;> rfl
@[simp] theorem State.restoreCpsr_budgetCarry (s : State) : (s.restoreCpsr).budgetCarry = s.budgetCarry := by unfold State.restoreCpsr; split <;> rfl
@[simp] theorem State.restoreCpsr_seq (s : State) : (s.restoreCpsr).seq = s.seq := by unfold State.restoreCpsr; split <;> rfl
@[simp] theorem State.restoreCpsr_budgetPos (s : State) : (s.restoreCpsr).budgetPos = s.budgetPos := by unfold State.restoreCpsr; split <;> rfl
@[simp] theorem State.restoreCpsr_inputs (s : State) : (s.restoreCpsr).inputs = s.inputs := by unfold State.restoreCpsr; split <;> rfl
@[simp] theorem State.restoreCpsr_regs (s : State) : (s.restoreCpsr).cpu.regs = s.cpu.regs := by unfold State.restoreCpsr; split <;> rfl
@[simp] theorem State.restoreCpsr_spsr (s : State) : (s.restoreCpsr).cpu.spsr = s.cpu.spsr := by unfold State.restoreCpsr; split <;> rfl
@[simp] theorem State.restoreCpsr_latchValid (s : State) : (s.restoreCpsr).cpu.latchValid = s.cpu.latchValid := by unfold State.restoreCpsr; split <;> rfl
@[simp] theorem State.restoreCpsr_latchOp (s : State) : (s.restoreCpsr).cpu.latchOp = s.cpu.latchOp := by unfold State.restoreCpsr; split <;> rfl
@[simp] theorem State.restoreCpsr_cur (s : State) : (s.restoreCpsr).cpu.cur = s.cpu.cur := by unfold State.restoreCpsr; split <;> rfl

@[simp] theorem State.fetchIntoLatch_fatal (s : State) : (s.fetchIntoLatch).fatal = s.fatal := rfl
@[simp] theorem State.fetchIntoLatch_cycles (s : State) : (s.fetchIntoLatch).cycles = s.cycles := rfl
@[simp] theorem State.fetchIntoLatch_cycleCounter (s : State) : (s.fetchIntoLatch).cycleCounter = s.cycleCounter := rfl
@[simp] theorem State.fetchIntoLatch_budgetCarry (s : State) : (s.fetchIntoLatch).budgetCarry = s.budgetCarry := rfl
@[simp] theorem State.fetchIntoLatch_seq (s : State) : (s.fetchIntoLatch).seq = s.seq := rfl
@[simp] theorem State.fetchIntoLatch_budgetPos (s : State) : (s.fetchIntoLatch).budgetPos = s.budgetPos := rfl
@[simp] theorem State.fetchIntoLatch_inputs (s : State) : (s.fetchIntoLatch).inputs = s.inputs := rfl
@[simp] theorem State.fetchIntoLatch_cpsr (s : State) : (s.fetchIntoLatch).cpu.cpsr = s.cpu.cpsr := rfl
@[simp] theorem State.fetchIntoLatch_spsr (s : State) : (s.fetchIntoLatch).cpu.spsr = s.cpu.spsr := rfl
@[simp] theorem State.fetchIntoLatch_cur (s : State) : (s.fetchIntoLatch).cpu.cur = s.cpu.cur := rfl

@[simp] theorem State.clearTally_fatal (s : State) : (s.clearTally).fatal = s.fatal := rfl
@[simp] theorem State.clearTally_cycleCounter (s : State) : (s.clearTally).cycleCounter = s.cycleCounter := rfl
@[simp] theorem State.clearTally_budgetCarry (s : State) : (s.clearTally).budgetCarry = s.budgetCarry := rfl
@[simp] theorem State.clearTally_seq (s : State) : (s.clearTally).seq = s.seq := rfl
@[simp] theorem State.clearTally_budgetPos (s : State) : (s.clearTally).budgetPos = s.budgetPos := rfl
@[simp] theorem State.clearTally_inputs (s : State) : (s.clearTally).inputs = s.inputs := rfl
@[simp] theorem State.clearTally_regs (s : State) : (s.clearTally).cpu.regs = s.cpu.regs := rfl
@[simp] theorem State.clearTally_cpsr (s : State) : (s.clearTally).cpu.cpsr = s.cpu.cpsr := rfl
@[simp] theorem State.clearTally_spsr (s : State) : (s.clearTally).cpu.spsr = s.cpu.spsr := rfl
@[simp] theorem State.clearTally_latchValid (s : State) : (s.clearTally).cpu.latchValid = s.cpu.latchValid := rfl
@[simp] theorem State.clearTally_latchOp (s : State) : (s.clearTally).cpu.latchOp = s.cpu.latchOp := rfl
@[simp] theorem State.clearTally_cur (s : State) : (s.clearTally).cpu.cur = s.cpu.cur := rfl

@[simp] theorem State.takeLatch_bus (s : State) : (s.takeLatch).bus = s.bus := rfl
@[simp] theorem State.takeLatch_fatal (s : State) : (s.takeLatch).fatal = s.fatal := rfl
@[simp] theorem State.takeLatch_cycles (s : State) : (s.takeLatch).cycles = s.cycles := rfl
@[simp] theorem State.takeLatch_cycleCounter (s : State) : (s.takeLatch).cycleCounter = s.cycleCounter := rfl
@[simp] theorem State.takeLatch_budgetCarry (s : State) : (s.takeLatch).budgetCarry = s.budgetCarry := rfl
@[simp] theorem State.takeLatch_seq (s : State) : (s.takeLatch).seq = s.seq := rfl
@[simp] theorem State.takeLatch_budgetPos (s : State) : (s.takeLatch).budgetPos = s.budgetPos := rfl
@[simp] theorem State.takeLatch_inputs (s : State) : (s.takeLatch).inputs = s.inputs := rfl
@[simp] theorem State.takeLatch_regs (s : State) : (s.takeLatch).cpu.regs = s.cpu.regs := rfl
@[simp] theorem State.takeLatch_cpsr (s : State) : (s.takeLatch).cpu.cpsr = s.cpu.cpsr := rfl
@[simp] theorem State.takeLatch_spsr (s : State) : (s.takeLatch).cpu.spsr = s.cpu.spsr := rfl
@[simp] theorem State.takeLatch_latchValid (s : State) : (s.takeLatch).cpu.latchValid = s.cpu.latchValid := rfl
@[simp] theorem State.takeLatch_latchOp (s : State) : (s.takeLatch).cpu.latchOp = s.cpu.latchOp := rfl

@[simp] theorem State.fillLatch_fatal (s : State) : (s.fillLatch).fatal = s.fatal := by unfold State.fillLatch; split <;> rfl
@[simp] theorem State.fillLatch_cycles (s : State) : (s.fillLatch).cycles = s.cycles := by unfold State.fillLatch; split <;> rfl
@[simp] theorem State.fillLatch_cycleCounter (s : State) : (s.fillLatch).cycleCounter = s.cycleCounter := by unfold State.fillLatch; split <;> rfl
@[simp] theorem State.fillLatch_budgetCarry (s : State) : (s.fillLatch).budgetCarry = s.budgetCarry := by unfold State.fillLatch; split <;> rfl
@[simp] theorem State.fillLatch_seq (s : State) : (s.fillLatch).seq = s.seq := by unfold State.fillLatch; split <;> rfl
@[simp] theorem State.fillLatch_budgetPos (s : State) : (s.fillLatch).budgetPos = s.budgetPos := by unfold State.fillLatch; split <;> rfl
@[simp] theorem State.fillLatch_inputs (s : State) : (s.fillLatch).inputs = s.inputs := by unfold State.fillLatch; split <;> rfl
@[simp] theorem State.fillLatch_cpsr (s : State) : (s.fillLatch).cpu.cpsr = s.cpu.cpsr := by unfold State.fillLatch; split <;> rfl
@[simp] theorem State.fillLatch_spsr (s : State) : (s.fillLatch).cpu.spsr = s.cpu.spsr := by unfold State.fillLatch; split <;> rfl
@[simp] theorem State.fillLatch_cur (s : State) : (s.fillLatch).cpu.cur = s.cpu.cur := by unfold State.fillLatch; split <;> rfl

@[simp] theorem State.popFiq_bus (s : State) : (s.popFiq).bus = s.bus := rfl
@[simp] theorem State.popFiq_fatal (s : State) : (s.popFiq).fatal = s.fatal := rfl
@[simp] theorem State.popFiq_cycles (s : State) : (s.popFiq).cycles = s.cycles := rfl
@[simp] theorem State.popFiq_cycleCounter (s : State) : (s.popFiq).cycleCounter = s.cycleCounter := rfl
@[simp] theorem State.popFiq_budgetCarry (s : State) : (s.popFiq).budgetCarry = s.budgetCarry := rfl
@[simp] theorem State.popFiq_seq (s : State) : (s.popFiq).seq = s.seq := rfl
@[simp] theorem State.popFiq_budgetPos (s : State) : (s.popFiq).budgetPos = s.budgetPos := rfl
@[simp] theorem State.popFiq_regs (s : State) : (s.popFiq).cpu.regs = s.cpu.regs := rfl
@[simp] theorem State.popFiq_cpsr (s : State) : (s.popFiq).cpu.cpsr = s.cpu.cpsr := rfl
@[simp] theorem State.popFiq_spsr (s : State) : (s.popFiq).cpu.spsr = s.cpu.spsr := rfl
@[simp] theorem State.popFiq_latchValid (s : State) : (s.popFiq).cpu.latchValid = s.cpu.latchValid := rfl
@[simp] theorem State.popFiq_latchOp (s : State) : (s.popFiq).cpu.latchOp = s.cpu.latchOp := rfl
@[simp] theorem State.popFiq_cur (s : State) : (s.popFiq).cpu.cur = s.cpu.cur := rfl

@[simp] theorem State.elapse_fatal (s : State) (k : Nat) : (s.elapse k).fatal = s.fatal := rfl
@[simp] theorem State.elapse_cycles (s : State) (k : Nat) : (s.elapse k).cycles = s.cycles := rfl
@[simp] theorem State.elapse_budgetCarry (s : State) (k : Nat) : (s.elapse k).budgetCarry = s.budgetCarry := rfl
@[simp] theorem State.elapse_seq (s : State) (k : Nat) : (s.elapse k).seq = s.seq := rfl
@[simp] theorem State.elapse_inputs (s : State) (k : Nat) : (s.elapse k).inputs = s.inputs := rfl
@[simp] theorem State.elapse_regs (s : State) (k : Nat) : (s.elapse k).cpu.regs = s.cpu.regs := rfl
@[simp] theorem State.elapse_cpsr (s : State) (k : Nat) : (s.elapse k).cpu.cpsr = s.cpu.cpsr := rfl
@[simp] theorem State.elapse_spsr (s : State) (k : Nat) : (s.elapse k).cpu.spsr = s.cpu.spsr := rfl
@[simp] theorem State.elapse_latchValid (s : State) (k : Nat) : (s.elapse k).cpu.latchValid = s.cpu.latchValid := rfl
@[simp] theorem State.elapse_latchOp (s : State) (k : Nat) : (s.elapse k).cpu.latchOp = s.cpu.latchOp := rfl
@[simp] theorem State.elapse_cur (s : State) (k : Nat) : (s.elapse k).cpu.cur = s.cpu.cur := rfl

@[simp] theorem State.popReset_bus (s : State) : (s.popReset).bus = s.bus := rfl
@[simp] theorem State.popReset_fatal (s : State) : (s.popReset).fatal = s.fatal := rfl
@[simp] theorem State.popReset_cycles (s : State) : (s.popReset).cycles = s.cycles := rfl
@[simp] theorem State.popReset_cycleCounter (s : State) : (s.popReset).cycleCounter = s.cycleCounter := rfl
@[simp] theorem State.popReset_budgetCarry (s : State) : (s.popReset).budgetCarry = s.budgetCarry := rfl
@[simp] theorem State.popReset_seq (s : State) : (s.popReset).seq = s.seq := rfl
@[simp] theorem State.popReset_budgetPos (s : State) : (s.popReset).budgetPos = s.budgetPos := rfl
@[simp] theorem State.popReset_regs (s : State) : (s.popReset).cpu.regs = s.cpu.regs := rfl
@[simp] theorem State.popReset_cpsr (s : State) : (s.popReset).cpu.cpsr = s.cpu.cpsr := rfl
@[simp] theorem State.popReset_spsr (s : State) : (s.popReset).cpu.spsr = s.cpu.spsr := rfl
@[simp] theorem State.popReset_latchValid (s : State) : (s.popReset).cpu.latchValid = s.cpu.latchValid := rfl
@[simp] theorem State.popReset_latchOp (s : State) : (s.popReset).cpu.latchOp = s.cpu.latchOp := rfl
@[simp] theorem State.popReset_cur (s : State) : (s.popReset).cpu.cur = s.cpu.cur := rfl

@[simp] theorem State.openBudget_bus (s : State) (p : SeqPhase) : (s.openBudget p).bus = s.bus := rfl
@[simp] theorem State.openBudget_fatal (s : State) (p : SeqPhase) : (s.openBudget p).fatal = s.fatal := rfl
@[simp] theorem State.openBudget_cycles (s : State) (p : SeqPhase) : (s.openBudget p).cycles = s.cycles := rfl
@[simp] theorem State.openBudget_cycleCounter (s : State) (p : SeqPhase) : (s.openBudget p).cycleCounter = s.cycleCounter := rfl
@[simp] theorem State.openBudget_budgetCarry (s : State) (p : SeqPhase) : (s.openBudget p).budgetCarry = s.budgetCarry := rfl
@[simp] theorem State.openBudget_inputs (s : State) (p : SeqPhase) : (s.openBudget p).inputs = s.inputs := rfl
@[simp] theorem State.openBudget_regs (s : State) (p : SeqPhase) : (s.openBudget p).cpu.regs = s.cpu.regs := rfl
@[simp] theorem State.openBudget_cpsr (s : State) (p : SeqPhase) : (s.openBudget p).cpu.cpsr = s.cpu.cpsr := rfl
@[simp] theorem State.openBudget_spsr (s : State) (p : SeqPhase) : (s.openBudget p).cpu.spsr = s.cpu.spsr := rfl
@[simp] theorem State.openBudget_latchValid (s : State) (p : SeqPhase) : (s.openBudget p).cpu.latchValid = s.cpu.latchValid := rfl
@[simp] theorem State.openBudget_latchOp (s : State) (p : SeqPhase) : (s.openBudget p).cpu.latchOp = s.cpu.latchOp := rfl
@[simp] theorem State.openBudget_cur (s : State) (p : SeqPhase) : (s.openBudget p).cpu.cur = s.cpu.cur := rfl

@[simp] theorem State.closeBudget_bus (s : State) (k : Nat) : (s.closeBudget k).bus = s.bus := rfl
@[simp] theorem State.closeBudget_fatal (s : State) (k : Nat) : (s.closeBudget k).fatal = s.fatal := rfl
@[simp] theorem State.closeBudget_cycles (s : State) (k : Nat) : (s.closeBudget k).cycles = s.cycles := rfl
@[simp] theorem State.closeBudget_cycleCounter (s : State) (k : Nat) : (s.closeBudget k).cycleCounter = s.cycleCounter := rfl
@[simp] theorem State.closeBudget_seq (s : State) (k : Nat) : (s.closeBudget k).seq = s.seq := rfl
@[simp] theorem State.closeBudget_budgetPos (s : State) (k : Nat) : (s.closeBudget k).budgetPos = s.budgetPos := rfl
@[simp] theorem State.closeBudget_inputs (s : State) (k : Nat) : (s.closeBudget k).inputs = s.inputs := rfl
@[simp] theorem State.closeBudget_regs (s : State) (k : Nat) : (s.closeBudget k).cpu.regs = s.cpu.regs := rfl
@[simp] theorem State.closeBudget_cpsr (s : State) (k : Nat) : (s.closeBudget k).cpu.cpsr = s.cpu.cpsr := rfl
@[simp] theorem State.closeBudget_spsr (s : State) (k : Nat) : (s.closeBudget k).cpu.spsr = s.cpu.spsr := rfl
@[simp] theorem State.closeBudget_latchValid (s : State) (k : Nat) : (s.closeBudget k).cpu.latchValid = s.cpu.latchValid := rfl
@[simp] theorem State.closeBudget_latchOp (s : State) (k : Nat) : (s.closeBudget k).cpu.latchOp = s.cpu.latchOp := rfl
@[simp] theorem State.closeBudget_cur (s : State) (k : Nat) : (s.closeBudget k).cpu.cur = s.cpu.cur := rfl

@[simp] theorem State.event_fatal (s : State) (f : Bus → Bus) : (s.event f).fatal = s.fatal := rfl
@[simp] theorem State.event_cycles (s : State) (f : Bus → Bus) : (s.event f).cycles = s.cycles := rfl
@[simp] theorem State.event_cycleCounter (s : State) (f : Bus → Bus) : (s.event f).cycleCounter = s.cycleCounter := rfl
@[simp] theorem State.event_budgetCarry (s : State) (f : Bus → Bus) : (s.event f).budgetCarry = s.budgetCarry := rfl
@[simp] theorem State.event_seq (s : State) (f : Bus → Bus) : (s.event f).seq = s.seq := rfl
@[simp] theorem State.event_budgetPos (s : State) (f : Bus → Bus) : (s.event f).budgetPos = s.budgetPos := rfl
@[simp] theorem State.event_inputs (s : State) (f : Bus → Bus) : (s.event f).inputs = s.inputs := rfl
@[simp] theorem State.event_regs (s : State) (f : Bus → Bus) : (s.event f).cpu.regs = s.cpu.regs := rfl
@[simp] theorem State.event_cpsr (s : State) (f : Bus → Bus) : (s.event f).cpu.cpsr = s.cpu.cpsr := rfl
@[simp] theorem State.event_spsr (s : State) (f : Bus → Bus) : (s.event f).cpu.spsr = s.cpu.spsr := rfl
@[simp] theorem State.event_latchValid (s : State) (f : Bus → Bus) : (s.event f).cpu.latchValid = s.cpu.latchValid := rfl
@[simp] theorem State.event_latchOp (s : State) (f : Bus → Bus) : (s.event f).cpu.latchOp = s.cpu.latchOp := rfl
@[simp] theorem State.event_cur (s : State) (f : Bus → Bus) : (s.event f).cpu.cur = s.cpu.cur := rfl

@[simp] theorem State.setCpsr_cpsr (s : State) (v : Word) : (s.setCpsr v).cpu.cpsr = v := rfl
@[simp] theorem State.setPhys_regs (s : State) (p : PhysReg) (v : Word) : (s.setPhys p v).cpu.regs = s.cpu.regs.set p v := rfl
@[simp] theorem State.writePc_regs (s : State) (v : Word) : (s.writePc v).cpu.regs = { s.cpu.regs with r15 := alignPc s.thumb v } := rfl
@[simp] theorem State.writePc_latchValid (s : State) (v : Word) : (s.writePc v).cpu.latchValid = false := rfl
@[simp] theorem State.tally_cycles (s : State) (k : Nat) : (s.tally k).cycles = s.cycles + k := rfl
@[simp] theorem State.afterRead_bus (s : State) (a : Word) (w : Width) : (s.afterRead a w).bus = Machine.afterRead s.bus a w := rfl
@[simp] theorem State.memWrite_bus (s : State) (a : Word) (w : Width) (v : Word) : (s.memWrite a w v).bus = busWrite s.r15 a w v s.bus := rfl
@[simp] theorem State.setNZCV_cpsr (s : State) (n z c v : Bool) : (s.setNZCV n z c v).cpu.cpsr = withFlags s.cpu.cpsr n z c v := rfl
@[simp] theorem State.setResultFlags_cpsr (s : State) (r : Word) (c v : Bool) : (s.setResultFlags r c v).cpu.cpsr = withFlags s.cpu.cpsr (r.getLsbD 31) (r == 0#32) c v := rfl
@[simp] theorem State.setNZ_cpsr (s : State) (r : Word) : (s.setNZ r).cpu.cpsr = withFlags s.cpu.cpsr (r.getLsbD 31) (r == 0#32) s.flagC s.flagV := rfl
@[simp] theorem State.enter_cpsr (s : State) (e : Exception) : (s.enter e).cpu.cpsr = entryCpsr s.cpu.cpsr e := rfl
@[simp] theorem State.enter_latchValid (s : State) (e : Exception) : (s.enter e).cpu.latchValid = false := rfl
@[simp] theorem State.enter_spsr (s : State) (e : Exception) : (s.enter e).cpu.spsr = s.cpu.spsr.set e.mode s.cpu.cpsr := rfl
@[simp] theorem State.takeLatch_cur (s : State) : (s.takeLatch).cpu.cur = s.cpu.latchOp := rfl
@[simp] theorem State.fetchIntoLatch_latchValid (s : State) : (s.fetchIntoLatch).cpu.latchValid = true := rfl

/-! ## What depends on CPSR and r15 alone -/

@[simp] theorem State.setCpsr_r15 (s : State) (v : Word) : (s.setCpsr v).r15 = s.r15 := rfl
@[simp] theorem State.setPhys_mode (s : State) (p : PhysReg) (v : Word) : (s.setPhys p v).mode = s.mode := rfl
@[simp] theorem State.setPhys_thumb (s : State) (p : PhysReg) (v : Word) : (s.setPhys p v).thumb = s.thumb := rfl
@[simp] theorem State.setPhys_flagN (s : State) (p : PhysReg) (v : Word) : (s.setPhys p v).flagN = s.flagN := rfl
@[simp] theorem State.setPhys_flagZ (s : State) (p : PhysReg) (v : Word) : (s.setPhys p v).flagZ = s.flagZ := rfl
@[simp] theorem State.setPhys_flagC (s : State) (p : PhysReg) (v : Word) : (s.setPhys p v).flagC = s.flagC := rfl
@[simp] theorem State.setPhys_flagV (s : State) (p : PhysReg) (v : Word) : (s.setPhys p v).flagV = s.flagV := rfl
@[simp] theorem State.writePc_mode (s : State) (v : Word) : (s.writePc v).mode = s.mode := rfl
@[simp] theorem State.writePc_thumb (s : State) (v : Word) : (s.writePc v).thumb = s.thumb := rfl
@[simp] theorem State.writePc_flagN (s : State) (v : Word) : (s.writePc v).flagN = s.flagN := rfl
@[simp] theorem State.writePc_flagZ (s : State) (v : Word) : (s.writePc v).flagZ = s.flagZ := rfl
@[simp] theorem State.writePc_flagC (s : State) (v : Word) : (s.writePc v).flagC = s.flagC := rfl
@[simp] theorem State.writePc_flagV (s : State) (v : Word) : (s.writePc v).flagV = s.flagV := rfl
@[simp] theorem State.tally_mode (s : State) (k : Nat) : (s.tally k).mode = s.mode := rfl
@[simp] theorem State.tally_thumb (s : State) (k : Nat) : (s.tally k).thumb = s.thumb := rfl
@[simp] theorem State.tally_flagN (s : State) (k : Nat) : (s.tally k).flagN = s.flagN := rfl
@[simp] theorem State.tally_flagZ (s : State) (k : Nat) : (s.tally k).flagZ = s.flagZ := rfl
@[simp] theorem State.tally_flagC (s : State) (k : Nat) : (s.tally k).flagC = s.flagC := rfl
@[simp] theorem State.tally_flagV (s : State) (k : Nat) : (s.tally k).flagV = s.flagV := rfl
@[simp] theorem State.tally_r15 (s : State) (k : Nat) : (s.tally k).r15 = s.r15 := rfl
@[simp] theorem State.afterRead_mode (s : State) (a : Word) (w : Width) : (s.afterRead a w).mode = s.mode := rfl
@[simp] theorem State.afterRead_thumb (s : State) (a : Word) (w : Width) : (s.afterRead a w).thumb = s.thumb := rfl
@[simp] theorem State.afterRead_flagN (s : State) (a : Word) (w : Width) : (s.afterRead a w).flagN = s.flagN := rfl
@[simp] theorem State.afterRead_flagZ (s : State) (a : Word) (w : Width) : (s.afterRead a w).flagZ = s.flagZ := rfl
@[simp] theorem State.afterRead_flagC (s : State) (a : Word) (w : Width) : (s.afterRead a w).flagC = s.flagC := rfl
@[simp] theorem State.afterRead_flagV (s : State) (a : Word) (w : Width) : (s.afterRead a w).flagV = s.flagV := rfl
@[simp] theorem State.afterRead_r15 (s : State) (a : Word) (w : Width) : (s.afterRead a w).r15 = s.r15 := rfl
@[simp] theorem State.memWrite_mode (s : State) (a : Word) (w : Width) (v : Word) : (s.memWrite a w v).mode = s.mode := rfl
@[simp] theorem State.memWrite_thumb (s : State) (a : Word) (w : Width) (v : Word) : (s.memWrite a w v).thumb = s.thumb := rfl
@[simp] theorem State.memWrite_flagN (s : State) (a : Word) (w : Width) (v : Word) : (s.memWrite a w v).flagN = s.flagN := rfl
@[simp] theorem State.memWrite_flagZ (s : State) (a : Word) (w : Width) (v : Word) : (s.memWrite a w v).flagZ = s.flagZ := rfl
@[simp] theorem State.memWrite_flagC (s : State) (a : Word) (w : Width) (v : Word) : (s.memWrite a w v).flagC = s.flagC := rfl
@[simp] theorem State.memWrite_flagV (s : State) (a : Word) (w : Width) (v : Word) : (s.memWrite a w v).flagV = s.flagV := rfl
@[simp] theorem State.memWrite_r15 (s : State) (a : Word) (w : Width) (v : Word) : (s.memWrite a w v).r15 = s.r15 := rfl
@[simp] theorem State.setNZCV_r15 (s : State) (n z c v : Bool) : (s.setNZCV n z c v).r15 = s.r15 := rfl
@[simp] theorem State.setResultFlags_r15 (s : State) (r : Word) (c v : Bool) : (s.setResultFlags r c v).r15 = s.r15 := rfl
@[simp] theorem State.setNZ_r15 (s : State) (r : Word) : (s.setNZ r).r15 = s.r15 := rfl
@[simp] theorem State.setX_mode (s : State) (i : Reg) (v : Word) : (s.setX i v).mode = s.mode := by simp [State.mode]
@[simp] theorem State.setX_thumb (s : State) (i : Reg) (v : Word) : (s.setX i v).thumb = s.thumb := by simp [State.thumb]
@[simp] theorem State.setX_flagN (s : State) (i : Reg) (v : Word) : (s.setX i v).flagN = s.flagN := by simp [State.flagN]
@[simp] theorem State.setX_flagZ (s : State) (i : Reg) (v : Word) : (s.setX i v).flagZ = s.flagZ := by simp [State.flagZ]
@[simp] theorem State.setX_flagC (s : State) (i : Reg) (v : Word) : (s.setX i v).flagC = s.flagC := by simp [State.flagC]
@[simp] theorem State.setX_flagV (s : State) (i : Reg) (v : Word) : (s.setX i v).flagV = s.flagV := by simp [State.flagV]
@[simp] theorem State.setXu_mode (s : State) (i : Reg) (v : Word) : (s.setXu i v).mode = s.mode := by simp [State.mode]
@[simp] theorem State.setXu_thumb (s : State) (i : Reg) (v : Word) : (s.setXu i v).thumb = s.thumb := by simp [State.thumb]
@[simp] theorem State.setXu_flagN (s : State) (i : Reg) (v : Word) : (s.setXu i v).flagN = s.flagN := by simp [State.flagN]
@[simp] theorem State.setXu_flagZ (s : State) (i : Reg) (v : Word) : (s.setXu i v).flagZ = s.flagZ := by simp [State.flagZ]
@[simp] theorem State.setXu_flagC (s : State) (i : Reg) (v : Word) : (s.setXu i v).flagC = s.flagC := by simp [State.flagC]
@[simp] theorem State.setXu_flagV (s : State) (i : Reg) (v : Word) : (s.setXu i v).flagV = s.flagV := by simp [State.flagV]
@[simp] theorem State.fetchIntoLatch_mode (s : State) : (s.fetchIntoLatch).mode = s.mode := rfl
@[simp] theorem State.fetchIntoLatch_thumb (s : State) : (s.fetchIntoLatch).thumb = s.thumb := rfl
@[simp] theorem State.fetchIntoLatch_flagN (s : State) : (s.fetchIntoLatch).flagN = s.flagN := rfl
@[simp] theorem State.fetchIntoLatch_flagZ (s : State) : (s.fetchIntoLatch).flagZ = s.flagZ := rfl
@[simp] theorem State.fetchIntoLatch_flagC (s : State) : (s.fetchIntoLatch).flagC = s.flagC := rfl
@[simp] theorem State.fetchIntoLatch_flagV (s : State) : (s.fetchIntoLatch).flagV = s.flagV := rfl
@[simp] theorem State.clearTally_r15 (s : State) : (s.clearTally).r15 = s.r15 := rfl
@[simp] theorem State.takeLatch_r15 (s : State) : (s.takeLatch).r15 = s.r15 := rfl
@[simp] theorem State.fillLatch_mode (s : State) : (s.fillLatch).mode = s.mode := by simp [State.mode]
@[simp] theorem State.fillLatch_thumb (s : State) : (s.fillLatch).thumb = s.thumb := by simp [State.thumb]
@[simp] theorem State.fillLatch_flagN (s : State) : (s.fillLatch).flagN = s.flagN := by simp [State.flagN]
@[simp] theorem State.fillLatch_flagZ (s : State) : (s.fillLatch).flagZ = s.flagZ := by simp [State.flagZ]
@[simp] theorem State.fillLatch_flagC (s : State) : (s.fillLatch).flagC = s.flagC := by simp [State.flagC]
@[simp] theorem State.fillLatch_flagV (s : State) : (s.fillLatch).flagV = s.flagV := by simp [State.flagV]
@[simp] theorem State.popFiq_r15 (s : State) : (s.popFiq).r15 = s.r15 := rfl
@[simp] theorem State.elapse_r15 (s : State) (k : Nat) : (s.elapse k).r15 = s.r15 := rfl
@[simp] theorem State.writePc_r15 (s : State) (v : Word) : (s.writePc v).r15 = alignPc s.thumb v := rfl
@[simp] theorem State.enter_r15 (s : State) (e : Exception) : (s.enter e).r15 = e.vector := rfl
@[simp] theorem State.fetchIntoLatch_r15 (s : State) : s.fetchIntoLatch.r15 = s.r15 + s.isize := rfl
@[simp] theorem State.setX_pc (s : State) (v : Word) : s.setX 15#4 v = s.writePc v := rfl

theorem State.setX_of_ne (s : State) {i : Reg} (h : i ≠ 15#4) (v : Word) : s.setX i v = s.setPhys (phys s.mode i) v := by
  simp [State.setX, h]

theorem State.setXu_of_ne (s : State) {i : Reg} (h : i ≠ 15#4) (v : Word) : s.setXu i v = s.setPhys (phys .usr i) v := by
  simp [State.setXu, h]

/-! ## Four like things -/

@[simp] theorem Four.get_set_same {α : Type} (f : Four α) (i : Fin 4) (v : α) : (f.set i v).get i = v := by
  fin_cases i <;> rfl

theorem Four.get_set_other {α : Type} (f : Four α) {i j : Fin 4} (h : j ≠ i) (v : α) : (f.set i v).get j = f.get j := by
  fin_cases i <;> fin_cases j <;> first | rfl | exact absurd rfl h

@[simp] theorem Four.set_get {α : Type} (f : Four α) (i : Fin 4) : f.set i (f.get i) = f := by
  fin_cases i <;> rfl

end Sys2Proof.Machine
end

