-- ==== Sys2Proof/Laws/Bits.lean ====
section
/-! SUPPORT. The laws of byte lanes, status fields and aligned addresses. -/

namespace Sys2Proof.Machine

/-! ## Byte lanes -/

theorem getLsbD_lane {n : Nat} (v : BitVec n) (k j : Nat) : (lane v k).getLsbD j = (decide (j < 8) && v.getLsbD (8 * k + j)) := by
  simp [lane]

theorem lane_assemble (w : Width) (f : Nat → Byte) (k : Nat) (hk : k < w.bytes) : lane (assemble w f) k = f k := by
  apply BitVec.eq_of_getLsbD_eq
  intro j hj
  rw [getLsbD_lane]
  cases w <;> simp only [Width.bytes] at hk <;> interval_cases k <;> interval_cases j <;> simp [assemble]

theorem assemble_lane_word (v : Word) : assemble .word (lane v) = v := by
  apply BitVec.eq_of_getLsbD_eq
  intro j hj
  interval_cases j <;> simp [assemble, lane]

theorem assemble_congr (w : Width) {f g : Nat → Byte} (h : ∀ k, k < w.bytes → f k = g k) : assemble w f = assemble w g := by
  cases w <;> simp only [assemble] <;> simp only [Width.bytes] at h
  · rw [h 0 (by omega)]
  · rw [h 0 (by omega), h 1 (by omega)]
  · rw [h 0 (by omega), h 1 (by omega), h 2 (by omega), h 3 (by omega)]

/-! ## Status fields -/

theorem getLsbD_setBit (v : Word) (k j : Nat) (b : Bool) (hj : j < 32) :
    (setBit v k b).getLsbD j = if j = k then b else v.getLsbD j := by
  have h1 : (1#32 <<< k).getLsbD j = decide (j = k) := by
    rw [BitVec.getLsbD_shiftLeft, BitVec.getLsbD_one]
    by_cases hlt : j < k
    · simp [hlt]; omega
    · have : (j - k = 0) ↔ j = k := by omega
      simp [hlt, hj, this]
  cases b
  · simp only [setBit, Bool.false_eq_true, if_false, BitVec.getLsbD_and, BitVec.getLsbD_not, hj, h1]
    by_cases h : j = k <;> simp [h]
  · simp only [setBit, if_true, BitVec.getLsbD_or, h1]
    by_cases h : j = k <;> simp [h]

theorem getLsbD_withFlags (p : Word) (n z c v : Bool) (k : Nat) (hk : k < 32) :
    (withFlags p n z c v).getLsbD k =
      if k = 28 then v else if k = 29 then c else if k = 30 then z else if k = 31 then n else p.getLsbD k := by
  simp only [withFlags, getLsbD_setBit _ _ _ _ hk]

@[simp] theorem withFlags_n (p : Word) (n z c v : Bool) : (withFlags p n z c v).getLsbD 31 = n := by
  rw [getLsbD_withFlags _ _ _ _ _ _ (by omega)]; rfl

@[simp] theorem withFlags_z (p : Word) (n z c v : Bool) : (withFlags p n z c v).getLsbD 30 = z := by
  rw [getLsbD_withFlags _ _ _ _ _ _ (by omega)]; rfl

@[simp] theorem withFlags_c (p : Word) (n z c v : Bool) : (withFlags p n z c v).getLsbD 29 = c := by
  rw [getLsbD_withFlags _ _ _ _ _ _ (by omega)]; rfl

@[simp] theorem withFlags_v (p : Word) (n z c v : Bool) : (withFlags p n z c v).getLsbD 28 = v := by
  rw [getLsbD_withFlags _ _ _ _ _ _ (by omega)]; rfl

theorem withFlags_low (p : Word) (n z c v : Bool) (k : Nat) (hk : k < 28) : (withFlags p n z c v).getLsbD k = p.getLsbD k := by
  rw [getLsbD_withFlags _ _ _ _ _ _ (by omega)]
  have h1 : k ≠ 28 := by omega
  have h2 : k ≠ 29 := by omega
  have h3 : k ≠ 30 := by omega
  have h4 : k ≠ 31 := by omega
  simp [h1, h2, h3, h4]

@[simp] theorem withFlags_modeField (p : Word) (n z c v : Bool) : modeField (withFlags p n z c v) = modeField p := by
  apply BitVec.eq_of_getLsbD_eq
  intro j hj
  rw [modeField, modeField, BitVec.getLsbD_extractLsb', BitVec.getLsbD_extractLsb', withFlags_low _ _ _ _ _ _ (by omega)]

@[simp] theorem withFlags_legalMode (p : Word) (n z c v : Bool) : legalMode (withFlags p n z c v) = legalMode p := by
  simp [legalMode]

@[simp] theorem withFlags_modeOf (p : Word) (n z c v : Bool) : modeOf (withFlags p n z c v) = modeOf p := by
  simp [modeOf]

@[simp] theorem withFlags_thumb (p : Word) (n z c v : Bool) : (withFlags p n z c v).getLsbD 5 = p.getLsbD 5 :=
  withFlags_low _ _ _ _ _ _ (by omega)

@[simp] theorem modeField_withMode (p : Word) (m : Mode) : modeField (withMode p m) = m.bits := by
  apply BitVec.eq_of_getLsbD_eq
  intro j hj
  rw [modeField, BitVec.getLsbD_extractLsb']
  interval_cases j <;> simp [withMode]

theorem getLsbD_withMode (p : Word) (m : Mode) (k : Nat) (h : 5 ≤ k) (hk : k < 32) :
    (withMode p m).getLsbD k = p.getLsbD k := by
  have h1 : (m.bits.setWidth 32).getLsbD k = false := by
    rw [BitVec.getLsbD_setWidth, BitVec.getLsbD_of_ge _ _ h]; simp
  rw [withMode, BitVec.getLsbD_or, h1, BitVec.getLsbD_and]
  interval_cases k <;> simp

theorem modeField_setBit (p : Word) (k : Nat) (b : Bool) (hk : 5 ≤ k) : modeField (setBit p k b) = modeField p := by
  apply BitVec.eq_of_getLsbD_eq
  intro j hj
  have hne : 0 + j ≠ k := by omega
  rw [modeField, modeField, BitVec.getLsbD_extractLsb', BitVec.getLsbD_extractLsb', getLsbD_setBit p k _ b (by omega),
    if_neg hne]

theorem legalMode_setBit (p : Word) (k : Nat) (b : Bool) (hk : 5 ≤ k) : legalMode (setBit p k b) = legalMode p := by
  simp [legalMode, modeField_setBit p k b hk]

/-! ## The CPSR of an exception entry (R531) -/

@[simp] theorem entryCpsr_modeField (p : Word) (e : Exception) : modeField (entryCpsr p e) = e.mode.bits := by
  unfold entryCpsr
  split <;> simp [modeField_setBit]

@[simp] theorem entryCpsr_legalMode (p : Word) (e : Exception) : legalMode (entryCpsr p e) = true := by
  simp [legalMode]

@[simp] theorem entryCpsr_modeOf (p : Word) (e : Exception) : modeOf (entryCpsr p e) = e.mode := by
  simp [modeOf]

theorem getLsbD_entryCpsr (p : Word) (e : Exception) (k : Nat) (hk : k < 32) (h5 : 5 ≤ k) :
    (entryCpsr p e).getLsbD k =
      if k = 5 then false else if k = 7 then true else if k = 6 ∧ e.masksFiq then true else p.getLsbD k := by
  unfold entryCpsr
  by_cases h : e.masksFiq <;> simp only [h, if_true, if_false, Bool.false_eq_true, and_true, and_false] <;>
    simp only [getLsbD_setBit _ _ _ _ hk, getLsbD_withMode _ _ _ h5 hk] <;>
    by_cases a : k = 5 <;> by_cases b : k = 6 <;> by_cases c : k = 7 <;> simp_all

@[simp] theorem State.enter_mode (s : State) (e : Exception) : (s.enter e).mode = e.mode := by
  simp [State.mode]

@[simp] theorem State.enter_thumb (s : State) (e : Exception) : (s.enter e).thumb = false := by
  simp only [State.thumb, State.enter]
  rw [getLsbD_entryCpsr _ _ _ (by omega) (by omega)]
  simp

/-! ## Aligned addresses (R31) -/

@[simp] theorem alignPc_idem (t : Bool) (v : Word) : alignPc t (alignPc t v) = alignPc t v := by
  cases t <;> simp [alignPc, BitVec.and_assoc]

theorem alignPc_thumb_eq_iff (v : Word) : alignPc true v = v ↔ v.toNat % 2 = 0 := by
  have hm : ∀ j < 32, (0xFFFFFFFE#32).getLsbD j = decide (j ≠ 0) := by decide
  have h0 : v.getLsbD 0 = decide (v.toNat % 2 = 1) := by simp only [BitVec.getLsbD, Nat.testBit_zero]
  constructor
  · intro h
    have := congrArg (fun x => x.getLsbD 0) h
    simp only [alignPc, if_true, BitVec.getLsbD_and, hm 0 (by omega), h0] at this
    simp at this
    omega
  · intro h
    apply BitVec.eq_of_getLsbD_eq
    intro j hj
    simp only [alignPc, if_true, BitVec.getLsbD_and, hm j hj]
    by_cases e : j = 0
    · subst e; simp only [h0]; simp; omega
    · simp [e]

theorem alignPc_arm_eq_iff (v : Word) : alignPc false v = v ↔ v.toNat % 4 = 0 := by
  have hm : ∀ j < 32, (0xFFFFFFFC#32).getLsbD j = decide (1 < j) := by decide
  have h0 : v.getLsbD 0 = decide (v.toNat % 2 = 1) := by simp only [BitVec.getLsbD, Nat.testBit_zero]
  have h1 : v.getLsbD 1 = decide (v.toNat / 2 % 2 = 1) := by
    simp only [BitVec.getLsbD, Nat.testBit_succ, Nat.testBit_zero]
  constructor
  · intro h
    have e0 := congrArg (fun x => x.getLsbD 0) h
    have e1 := congrArg (fun x => x.getLsbD 1) h
    simp only [alignPc, Bool.false_eq_true, if_false, BitVec.getLsbD_and, hm 0 (by omega), hm 1 (by omega), h0, h1] at e0 e1
    simp at e0 e1
    omega
  · intro h
    apply BitVec.eq_of_getLsbD_eq
    intro j hj
    simp only [alignPc, Bool.false_eq_true, if_false, BitVec.getLsbD_and, hm j hj]
    by_cases e : 1 < j
    · simp [e]
    · have : j = 0 ∨ j = 1 := by omega
      rcases this with rfl | rfl
      · simp only [h0]; simp; omega
      · simp only [h1]; simp; omega

theorem alignPc_eq_iff (t : Bool) (v : Word) : alignPc t v = v ↔ v.toNat % (if t then 2 else 4) = 0 := by
  cases t
  · simpa using alignPc_arm_eq_iff v
  · simpa using alignPc_thumb_eq_iff v

/-- r15 + isize stays aligned (R29). -/
theorem alignPc_next (t : Bool) (v : Word) (h : alignPc t v = v) :
    alignPc t (v + (if t then 2#32 else 4#32)) = v + (if t then 2#32 else 4#32) := by
  rw [alignPc_eq_iff] at h ⊢
  cases t <;> simp_all [BitVec.toNat_add]

end Sys2Proof.Machine
end

