-- ==== Sys2Proof/Laws/Memory.lean ====
section
/-! SUPPORT. The laws of the sparse byte store: read after write, and that every operation keeps the canonical form. -/

namespace Sys2Proof

theorem Memory.read_write_same (m : Memory) (i : Nat) (v : Byte) (h : m.wf) : (m.write i v).read i = v := by
  induction m with
  | nil => unfold Memory.write; split <;> simp_all [Memory.read, unlisted]
  | cons p rest ih =>
    obtain ⟨k, u⟩ := p
    obtain ⟨hs, hn⟩ := h
    rw [List.pairwise_cons] at hs
    have hrest : ∀ q ∈ rest, i ≤ k → i < q.1 := fun q hq hik => lt_of_le_of_lt hik (hs.1 q hq)
    have hmiss : ∀ r : Memory, (∀ q ∈ r, i < q.1) → Memory.read r i = unlisted := by
      intro r hr
      induction r with
      | nil => rfl
      | cons q r ih2 =>
        have h1 := hr q (by simp)
        have h2 : q.1 ≠ i := by omega
        simp only [Memory.read, h2, if_false]
        exact ih2 fun x hx => hr x (by simp [hx])
    unfold Memory.write
    split
    · split
      · subst_vars
        have h2 : k ≠ i := by omega
        simp only [Memory.read, h2, if_false]
        exact hmiss rest fun q hq => hrest q hq (by omega)
      · simp [Memory.read]
    · split
      · split
        · subst_vars
          exact hmiss rest fun q hq => hrest q hq (le_refl _)
        · simp [Memory.read]
      · have h2 : k ≠ i := by omega
        simp only [Memory.read, h2, if_false]
        exact ih ⟨hs.2, fun c hc => hn c (by simp [hc])⟩

theorem Memory.read_write_other (m : Memory) {i j : Nat} (v : Byte) (hij : j ≠ i) : (m.write i v).read j = m.read j := by
  induction m with
  | nil => unfold Memory.write; split <;> simp [Memory.read, Ne.symm hij]
  | cons p rest ih =>
    obtain ⟨k, u⟩ := p
    unfold Memory.write
    split
    · split <;> simp [Memory.read, Ne.symm hij]
    · split
      · split <;> subst_vars <;> simp [Memory.read, Ne.symm hij]
      · simp only [Memory.read, ih]

theorem Memory.mem_write (m : Memory) (i : Nat) (v : Byte) (c : Host.Cell) (h : c ∈ m.write i v) :
    c ∈ m ∨ (c = (i, v) ∧ v ≠ unlisted) := by
  induction m with
  | nil =>
    unfold Memory.write at h
    split at h <;> simp_all
  | cons p rest ih =>
    obtain ⟨k, u⟩ := p
    unfold Memory.write at h
    split at h
    · split at h <;> simp_all <;> tauto
    · split at h
      · split at h <;> simp_all <;> tauto
      · simp only [List.mem_cons] at h ⊢
        rcases h with h | h
        · exact .inl (.inl h)
        · rcases ih h with h | h
          · exact .inl (.inr h)
          · exact .inr h

/-- A write keeps the canonical form. -/
theorem Memory.write_wf (m : Memory) (i : Nat) (v : Byte) (h : m.wf) : (m.write i v).wf := by
  refine ⟨?_, ?_⟩
  · induction m with
    | nil => unfold Memory.write; split <;> simp
    | cons p rest ih =>
      obtain ⟨k, u⟩ := p
      obtain ⟨hs, hn⟩ := h
      have hs' := List.pairwise_cons.mp hs
      unfold Memory.write
      split
      · split
        · exact hs
        · refine List.pairwise_cons.mpr ⟨?_, hs⟩
          intro q hq
          rcases List.mem_cons.mp hq with rfl | hq
          · assumption
          · exact lt_trans ‹i < k› (hs'.1 q hq)
      · split
        · split
          · exact hs'.2
          · subst_vars; exact List.pairwise_cons.mpr hs'
        · refine List.pairwise_cons.mpr ⟨?_, ih ⟨hs'.2, fun c hc => hn c (by simp [hc])⟩⟩
          intro q hq
          rcases Memory.mem_write _ _ _ _ hq with hq | ⟨rfl, _⟩
          · exact hs'.1 q hq
          · show k < i; omega
  · intro c hc
    rcases Memory.mem_write _ _ _ _ hc with hc | ⟨rfl, hv⟩
    · exact h.2 c hc
    · exact hv

/-- A fill keeps the canonical form. -/
theorem Memory.fill_wf (m : Memory) (lo n : Nat) (v : Byte) (h : m.wf) : (m.fill lo n v).wf := by
  have hmid : ∀ c : Host.Cell, c ∈ (if v = unlisted then [] else (List.range' lo n).map fun i => (i, v)) →
      lo ≤ c.1 ∧ c.1 < lo + n ∧ c.2 ≠ unlisted := by
    intro c hc
    split at hc
    · simp at hc
    · obtain ⟨i, hi, rfl⟩ := List.mem_map.mp hc
      have := List.mem_range'_1.mp hi
      exact ⟨this.1, this.2, by assumption⟩
  refine ⟨?_, ?_⟩
  · unfold Memory.fill
    refine List.pairwise_append.mpr ⟨h.1.filter _, List.pairwise_append.mpr ⟨?_, h.1.filter _, ?_⟩, ?_⟩
    · split
      · simp
      · exact List.pairwise_map.mpr (List.pairwise_lt_range' (s := lo) (n := n))
    · intro a ha b hb
      have h1 := hmid a ha
      have h2 := (List.mem_filter.mp hb).2
      simp only [decide_eq_true_eq] at h2
      omega
    · intro a ha b hb
      have h1 := (List.mem_filter.mp ha).2
      simp only [decide_eq_true_eq] at h1
      rcases List.mem_append.mp hb with hb | hb
      · have := hmid b hb; omega
      · have h2 := (List.mem_filter.mp hb).2
        simp only [decide_eq_true_eq] at h2
        omega
  · intro c hc
    unfold Memory.fill at hc
    rcases List.mem_append.mp hc with hc | hc
    · exact h.2 c (List.mem_filter.mp hc).1
    · rcases List.mem_append.mp hc with hc | hc
      · exact (hmid c hc).2.2
      · exact h.2 c (List.mem_filter.mp hc).1

theorem Memory.nil_wf : Memory.wf [] := ⟨List.Pairwise.nil, by simp⟩

namespace Machine

/-- `eachLane` keeps what each lane's action keeps. -/
theorem eachLane_keeps {σ : Type} (P : σ → Prop) (w : Width) (v : Word) (f : Nat → Byte → σ → σ)
    (hf : ∀ k b s, P s → P (f k b s)) (s : σ) (h : P s) : P (eachLane w v f s) := by
  cases w <;> simp only [eachLane] <;> repeat' (first | exact h | apply hf)

theorem writeBytes_wf (m : Memory) (i : Nat) (w : Width) (v : Word) (h : m.wf) : (writeBytes m i w v).wf :=
  eachLane_keeps (fun m => m.wf) w v _ (fun _ _ m hm => Memory.write_wf m _ _ hm) m h

/-- The stored bytes of `writeBytes`. -/
theorem read_writeBytes_same (m : Memory) (i : Nat) (w : Width) (v : Word) (h : m.wf) (k : Nat) (hk : k < w.bytes) :
    (writeBytes m i w v).read (i + k) = lane v k := by
  cases w <;> simp only [Width.bytes] at hk <;> interval_cases k <;>
    simp only [writeBytes, eachLane, Nat.add_zero] <;>
    repeat' (first
      | (rw [Memory.read_write_same]; repeat' (first | exact h | apply Memory.write_wf))
      | (rw [Memory.read_write_other _ _ (by omega)]))

/-- Every other byte of `writeBytes` is as before. -/
theorem read_writeBytes_other (m : Memory) (i : Nat) (w : Width) (v : Word) (j : Nat)
    (hj : j < i ∨ i + w.bytes ≤ j) : (writeBytes m i w v).read j = m.read j := by
  cases w <;> simp only [Width.bytes] at hj <;> simp only [writeBytes, eachLane, Nat.add_zero] <;>
    repeat' (rw [Memory.read_write_other _ _ (by omega)])

end Machine

end Sys2Proof
end

