-- ==== Sys2Proof/Laws/Bus.lean ====
section
/-! SUPPORT. What any access, transfer or timer batch can do to the bus, said once: a property that every primitive
update keeps is kept by all of them. -/

namespace Sys2Proof.Machine

/-- `P` is kept by every primitive update that bus accesses, DMA and timers are made of. -/
structure BusStable (P : Bus → Prop) : Prop where
  mem : ∀ b i v, P b → P { b with mem := b.mem.write i v }
  flash : ∀ b a v, P b → P { b with flash := b.flash.writeByte a v }
  eepromWrite : ∀ b m bit, P b → P { b with eeprom := b.eeprom.supplyBit m bit }
  eepromRead : ∀ b, P b → P { b with eeprom := b.eeprom.afterRead }
  eepromFrame : ∀ b n, P b → P { b with eeprom := { b.eeprom with idx := 0, reqLen := some n } }
  io : ∀ edge r15 off v b, (∀ c b, P b → P (edge c b)) → P b → P (ioWriteByte edge r15 off v b)
  latch : ∀ c b, P b → P (updDma c (dmaLatch c) b)
  advance : ∀ c w b, w ≠ .byte → P b → P (updDma c (fun d => d.advance w) b)
  fifoStep : ∀ c b, P b → P (updDma c (fun d => { d with src := d.src + d.sstep .word }) b)
  complete : ∀ c b, P b → P (updDma c (dmaCompleteChannel c) b)
  irq : ∀ k b, k < 14 → P b → P (raiseIrq k b)
  cost : ∀ b n, P b → P { b with dmaCycles := n }
  refuse : ∀ b c, P b → P { b with refusal := some (.dmaReentry c) }
  count : ∀ t f d carry b, P b → P (updTimer t (fun x => x.count f d carry) b)
  wrap : ∀ t b, P b → P (updTimer t (fun x => { x with counter := x.reload.toNat + (x.counter - 0x10000) }) b)
  loadA : ∀ b, P b → P { b with io := { b.io with fifoA := b.io.fifoA - 1 } }
  loadB : ∀ b, P b → P { b with io := { b.io with fifoB := b.io.fifoB - 1 } }

variable {P : Bus → Prop}

/-- A DMA unit is a halfword or a word (R493). -/
theorem DmaChannel.width_ne_byte (d : DmaChannel) : d.width ≠ .byte := by
  unfold DmaChannel.width; split <;> simp

theorem BusStable.backupWrite (hP : BusStable P) (a : Nat) (v : Byte) (b : Bus) (h : P b) : P (backupWriteByte a v b) := by
  by_cases hu : b.flash.used
  · simp only [backupWriteByte, hu, if_true]
    exact hP.flash b a v h
  · simp only [backupWriteByte, hu]
    exact hP.flash _ a v (hP.mem b (sramKey a) v h)

theorem BusStable.writeBytes (hP : BusStable P) (i : Nat) (w : Width) (v : Word) (b : Bus) (h : P b) :
    P { b with mem := Machine.writeBytes b.mem i w v } :=
  eachLane_keeps (fun m => P { b with mem := m }) w v _ (fun k u m hm => hP.mem { b with mem := m } (i + k) u hm) b.mem h

theorem BusStable.writeVideo (hP : BusStable P) (a : Word) (w : Width) (v : Word) (b : Bus) (h : P b) :
    P { b with mem := Machine.writeVideo b.mem a w v } := by
  cases w
  · exact hP.mem _ _ _ (hP.mem _ _ _ h)
  · exact hP.writeBytes _ _ _ _ h
  · exact hP.writeBytes _ _ _ _ h

theorem BusStable.afterRead (hP : BusStable P) (a : Word) (w : Width) (b : Bus) (h : P b) : P (Machine.afterRead b a w) := by
  unfold Machine.afterRead
  split
  · exact hP.eepromRead b h
  · exact h

theorem BusStable.writeWith (hP : BusStable P) (m : BusMaster) {edge : Fin 4 → Bus → Bus} (he : ∀ c b, P b → P (edge c b)) (r15 a : Word)
    (w : Width) (v : Word) (b : Bus) (h : P b) : P (Machine.writeWith m edge r15 a w v b) := by
  simp only [Machine.writeWith]
  split
  · exact hP.eepromWrite b m _ h
  · cases regionOf (w.align a)
    case bios => exact h
    case unmapped => exact h
    case rom => exact h
    case ewram => exact hP.writeBytes _ _ _ _ h
    case iwram => exact hP.writeBytes _ _ _ _ h
    case pal => exact hP.writeVideo _ _ _ _ h
    case vram => exact hP.writeVideo _ _ _ _ h
    case oam =>
      show P (if w = .byte then b else _)
      split
      · exact h
      · exact hP.writeBytes _ _ _ _ h
    case io =>
      show P (if offsetOf (w.align a) ≤ 0x3FF then _ else b)
      split
      · exact eachLane_keeps P w v _ (fun k u b hb => hP.io edge r15 _ u b he hb) b h
      · exact h
    case backup => exact eachLane_keeps P w v _ (fun k u b hb => hP.backupWrite _ u b hb) b h

theorem BusStable.dmaUnit (hP : BusStable P) {edge : Fin 4 → Bus → Bus} (he : ∀ c b, P b → P (edge c b)) (r15 : Word)
    (c : Fin 4) (b : Bus) (h : P b) : P (Machine.dmaUnit edge r15 c b) :=
  hP.advance c _ _ (DmaChannel.width_ne_byte _) (hP.writeWith .dma he _ _ _ _ _ (hP.afterRead _ _ _ h))

theorem BusStable.dmaUnits (hP : BusStable P) {edge : Fin 4 → Bus → Bus} (he : ∀ c b, P b → P (edge c b)) (r15 : Word)
    (c : Fin 4) (n : Nat) (b : Bus) (h : P b) : P (Machine.dmaUnits edge r15 c n b) := by
  induction n generalizing b with
  | zero => exact h
  | succ n ih => exact ih _ (hP.dmaUnit he r15 c b h)

theorem BusStable.dmaStart (hP : BusStable P) (c : Fin 4) (b : Bus) (h : P b) : P (Machine.dmaStart c b) := by
  unfold Machine.dmaStart
  split
  · exact hP.eepromFrame _ _ (hP.cost b _ h)
  · exact hP.cost b _ h

theorem BusStable.dmaComplete (hP : BusStable P) (c : Fin 4) (b : Bus) (h : P b) : P (Machine.dmaComplete c b) := by
  refine hP.complete c _ ?_
  split
  · exact hP.irq _ b (by omega) h
  · exact h

theorem BusStable.enableEdgeWith (hP : BusStable P) {run : Fin 4 → Bus → Bus} (hr : ∀ c b, P b → P (run c b)) (c : Fin 4)
    (b : Bus) (h : P b) : P (Machine.enableEdgeWith run c b) := by
  simp only [Machine.enableEdgeWith]
  split
  · exact hr c _ (hP.latch c b h)
  · exact hP.latch c b h

/-- A whole transfer, whatever nests in it. -/
theorem BusStable.dmaRun (hP : BusStable P) (depth : Nat) (running : List (Fin 4)) (r15 : Word) (c : Fin 4) (b : Bus)
    (h : P b) : P (Machine.dmaRun depth running r15 c b) := by
  induction depth generalizing running c b with
  | zero => exact hP.refuse b c h
  | succ n ih =>
    refine hP.dmaComplete c _ (hP.dmaUnits ?_ r15 c _ _ (hP.dmaStart c b h))
    intro c' b' h'
    split
    · exact hP.refuse b' c' h'
    · exact hP.enableEdgeWith (fun c'' b'' h'' => ih _ c'' b'' h'') c' b' h'

theorem BusStable.dmaEnableEdge (hP : BusStable P) (r15 : Word) (c : Fin 4) (b : Bus) (h : P b) :
    P (Machine.dmaEnableEdge r15 c b) :=
  hP.enableEdgeWith (fun c b h => hP.dmaRun 4 [] r15 c b h) c b h

/-- A store of the CPU, with every transfer it triggers. -/
theorem BusStable.busWrite (hP : BusStable P) (r15 a : Word) (w : Width) (v : Word) (b : Bus) (h : P b) :
    P (Machine.busWrite r15 a w v b) :=
  hP.writeWith .cpu (fun c b h => hP.dmaEnableEdge r15 c b h) r15 a w v b h

theorem BusStable.dmaTrigger (hP : BusStable P) (k : BitVec 2) (r15 : Word) (b : Bus) (h : P b) :
    P (Machine.dmaTrigger k r15 b) := by
  have h1 : ∀ c b, P b → P (dmaTriggerOne k r15 c b) := by
    intro c b h
    unfold dmaTriggerOne
    split
    · exact hP.dmaRun 4 [] r15 c b h
    · exact h
  exact h1 3 _ (h1 2 _ (h1 1 _ (h1 0 _ h)))

theorem BusStable.fifoDma (hP : BusStable P) (r15 : Word) (c : Fin 4) (reg : Word) (b : Bus) (h : P b) :
    P (Machine.fifoDma r15 c reg b) := by
  have h1 : ∀ b, P b → P (fifoDmaUnit r15 c reg b) := fun b h =>
    hP.fifoStep c _ (hP.busWrite r15 reg .word _ _ (hP.afterRead _ _ _ h))
  unfold Machine.fifoDma
  split
  · exact h1 _ (h1 _ (h1 _ (h1 _ (hP.cost b _ h))))
  · exact h

theorem BusStable.fifoTimerOverflow (hP : BusStable P) (r15 : Word) (t : Fin 4) (b : Bus) (h : P b) :
    P (Machine.fifoTimerOverflow r15 t b) := by
  have hA : P (fifoOverflowA r15 t b) := by
    unfold fifoOverflowA
    split
    · simp only
      split
      · exact hP.fifoDma _ _ _ _ (hP.loadA b h)
      · exact hP.loadA b h
    · exact h
  show P (fifoOverflowB r15 t (fifoOverflowA r15 t b))
  generalize fifoOverflowA r15 t b = b' at hA
  unfold fifoOverflowB
  split
  · simp only
    split
    · exact hP.fifoDma _ _ _ _ (hP.loadB b' hA)
    · exact hP.loadB b' hA
  · exact hA

theorem BusStable.timerOverflow (hP : BusStable P) (r15 : Word) (t : Fin 4) (b : Bus) (h : P b) :
    P (Machine.timerOverflow r15 t b) := by
  have irq : ∀ b', P b' → P (if (b'.io.timer.get t).control.getLsbD 6 then raiseIrq (3 + t.val) b' else b') := by
    intro b' h'
    split
    · exact hP.irq (3 + t.val) b' (by omega) h'
    · exact h'
  have fifo : ∀ b', P b' → P (if t.val ≤ 1 then Machine.fifoTimerOverflow r15 t b' else b') := by
    intro b' h'
    split
    · exact hP.fifoTimerOverflow r15 t b' h'
    · exact h'
  exact irq _ (fifo _ (hP.wrap t b h))

theorem BusStable.timerStep (hP : BusStable P) (r15 : Word) (d : Nat) (t : Fin 4) (p : Bus × Nat) (h : P p.1) :
    P (Machine.timerStep r15 d t p).1 := by
  obtain ⟨b, carry⟩ := p
  simp only [Machine.timerStep]
  split
  · exact h
  · split
    · exact hP.timerOverflow r15 t _ (hP.count t _ d _ _ h)
    · exact hP.count t _ d _ _ h

/-- A batch of timer cycles, with the FIFO service it clocks. -/
theorem BusStable.timersAdvance (hP : BusStable P) (r15 : Word) (d : Nat) (b : Bus) (h : P b) :
    P (Machine.timersAdvance r15 d b) :=
  hP.timerStep _ _ _ _ (hP.timerStep _ _ _ _ (hP.timerStep _ _ _ _ (hP.timerStep _ _ _ (b, 0) h)))

/-! ## Every store of bytes keeps its canonical form -/

/-- The four stores of bytes behind the bus are in canonical form. -/
structure Bus.StoresWf (b : Bus) : Prop where
  mem : b.mem.wf
  flash : b.flash.store.wf
  eeprom : b.eeprom.store.wf
  other : b.io.other.wf

theorem Flash.writeByte_wf (f : Flash) (a : Nat) (v : Byte) (h : f.store.wf) : (f.writeByte a v).store.wf := by
  unfold Flash.writeByte Flash.command Flash.commandEffect Flash.noteUse Flash.guardStep
  repeat' (first | exact h | exact Memory.write_wf _ _ _ h | exact Memory.fill_wf _ _ _ _ h | split)

theorem Eeprom.storePayload_wf (e : Eeprom) (base start k : Nat) (h : e.store.wf) : (e.storePayload base start k).wf := by
  induction k with
  | zero => exact h
  | succ k ih => exact Memory.write_wf _ _ _ ih

theorem Eeprom.request_wf (e : Eeprom) (len n : Nat) (h : e.store.wf) : (e.request len n).store.wf := by
  unfold Eeprom.request
  simp only
  repeat' (first | exact h | exact Eeprom.storePayload_wf _ _ _ _ h | split)

theorem Eeprom.complete_wf (e : Eeprom) (len : Nat) (h : e.store.wf) : (e.complete len).store.wf := by
  unfold Eeprom.complete
  simp only
  split
  · exact Eeprom.request_wf e len _ h
  · exact h

@[simp] theorem Eeprom.shiftIn_store (e : Eeprom) (bit : Bool) : (e.shiftIn bit).store = e.store := by
  unfold Eeprom.shiftIn; simp only; split <;> rfl

theorem Eeprom.writeBit_wf (e : Eeprom) (bit : Bool) (h : e.store.wf) : (e.writeBit bit).store.wf := by
  have h1 : (e.shiftIn bit).store.wf := by rw [Eeprom.shiftIn_store]; exact h
  unfold Eeprom.writeBit
  simp only
  split
  · split
    · exact Eeprom.complete_wf _ _ h1
    · exact h1
  · exact h1

theorem Eeprom.supplyBit_wf (m : BusMaster) (e : Eeprom) (bit : Bool) (h : e.store.wf) : (e.supplyBit m bit).store.wf := by
  cases m
  · show (e.shiftIn bit).store.wf
    rw [Eeprom.shiftIn_store]; exact h
  · exact Eeprom.writeBit_wf e bit h

theorem Eeprom.afterRead_store (e : Eeprom) : e.afterRead.store = e.store := by
  unfold Eeprom.afterRead; split <;> rfl

/-- An I/O write changes no byte store but the lanes of `IoOther`, an enable edge apart. -/
theorem ioWriteByte_storesWf (edge : Fin 4 → Bus → Bus) (r15 : Word) (off : Nat) (v : Byte) (b : Bus)
    (he : ∀ c b, Bus.StoresWf b → Bus.StoresWf (edge c b)) (h : b.StoresWf) : (ioWriteByte edge r15 off v b).StoresWf := by
  obtain ⟨h1, h2, h3, h4⟩ := h
  have plain : ∀ b' : Bus, b'.mem = b.mem → b'.flash.store = b.flash.store → b'.eeprom.store = b.eeprom.store →
      b'.io.other = b.io.other → b'.StoresWf := by
    intro b' e1 e2 e3 e4
    exact ⟨e1 ▸ h1, e2 ▸ h2, e3 ▸ h3, e4 ▸ h4⟩
  unfold ioWriteByte
  cases ioLane off
  case dmaCntH c k =>
    simp only
    split
    · exact he _ _ (plain _ rfl rfl rfl rfl)
    · exact plain _ rfl rfl rfl rfl
  case soundcntH k => exact plain _ rfl rfl rfl (by simp only [writeSoundcntH]; split <;> rfl)
  case other off =>
    simp only
    split
    · split
      · exact ⟨h1, h2, h3, Memory.write_wf _ _ _ h4⟩
      · exact ⟨h1, h2, h3, h4⟩
    · exact ⟨h1, h2, h3, h4⟩
  all_goals
    simp only
    first
      | exact plain _ rfl rfl rfl rfl
      | (split <;> exact plain _ rfl rfl rfl rfl)

theorem storesWf_stable : BusStable Bus.StoresWf where
  mem b i v h := ⟨Memory.write_wf _ _ _ h.mem, h.flash, h.eeprom, h.other⟩
  flash b a v h := ⟨h.mem, Flash.writeByte_wf _ _ _ h.flash, h.eeprom, h.other⟩
  eepromWrite b m bit h := ⟨h.mem, h.flash, Eeprom.supplyBit_wf m _ _ h.eeprom, h.other⟩
  eepromRead b h := ⟨h.mem, h.flash, by rw [Eeprom.afterRead_store]; exact h.eeprom, h.other⟩
  eepromFrame b n h := ⟨h.mem, h.flash, h.eeprom, h.other⟩
  io edge r15 off v b he h := ioWriteByte_storesWf edge r15 off v b he h
  latch c b h := ⟨h.mem, h.flash, h.eeprom, h.other⟩
  advance c w b _ h := ⟨h.mem, h.flash, h.eeprom, h.other⟩
  fifoStep c b h := ⟨h.mem, h.flash, h.eeprom, h.other⟩
  complete c b h := ⟨h.mem, h.flash, h.eeprom, h.other⟩
  irq k b _ h := ⟨h.mem, h.flash, h.eeprom, h.other⟩
  cost b n h := ⟨h.mem, h.flash, h.eeprom, h.other⟩
  refuse b c h := ⟨h.mem, h.flash, h.eeprom, h.other⟩
  count t f d carry b h := ⟨h.mem, h.flash, h.eeprom, h.other⟩
  wrap t b h := ⟨h.mem, h.flash, h.eeprom, h.other⟩
  loadA b h := ⟨h.mem, h.flash, h.eeprom, h.other⟩
  loadB b h := ⟨h.mem, h.flash, h.eeprom, h.other⟩

theorem reset_storesWf : State.reset.bus.StoresWf :=
  ⟨Memory.nil_wf, Memory.nil_wf, Memory.nil_wf, Memory.nil_wf⟩

/-- The parameters never change (R7, R592). -/
theorem params_stable (p : Params) : BusStable (fun b => b.params = p) where
  mem _ _ _ h := h
  flash _ _ _ h := h
  eepromWrite _ _ _ h := h
  eepromRead _ h := h
  eepromFrame _ _ h := h
  io edge r15 off v b he h := by
    unfold ioWriteByte
    cases ioLane off
    case dmaCntH c k =>
      simp only
      split
      · exact he _ _ h
      · exact h
    all_goals
      simp only
      first
        | exact h
        | (split <;> exact h)
        | (split <;> first | exact h | (split <;> exact h))
  latch _ _ h := h
  advance _ _ _ _ h := h
  fifoStep _ _ h := h
  complete _ _ h := h
  irq _ _ _ h := h
  cost _ _ h := h
  refuse _ _ h := h
  count _ _ _ _ _ h := h
  wrap _ _ h := h
  loadA _ h := h
  loadB _ h := h

/-- No refusal but that of a DMA enable edge in the middle of its own run (R506). -/
theorem refusal_stable : BusStable (fun b => b.refusal = none ∨ ∃ c, b.refusal = some (.dmaReentry c)) where
  mem _ _ _ h := h
  flash _ _ _ h := h
  eepromWrite _ _ _ h := h
  eepromRead _ h := h
  eepromFrame _ _ h := h
  io edge r15 off v b he h := by
    unfold ioWriteByte
    cases ioLane off
    case dmaCntH c k =>
      simp only
      split
      · exact he _ _ h
      · exact h
    all_goals
      simp only
      first
        | exact h
        | (split <;> exact h)
        | (split <;> first | exact h | (split <;> exact h))
  latch _ _ h := h
  advance _ _ _ _ h := h
  fifoStep _ _ h := h
  complete _ _ h := h
  irq _ _ _ h := h
  cost _ _ h := h
  refuse _ c _ := .inr ⟨c, rfl⟩
  count _ _ _ _ _ h := h
  wrap _ _ h := h
  loadA _ h := h
  loadB _ h := h

end Sys2Proof.Machine
end

