-- ==== Sys2Proof/Laws/Effect.lean ====
section
/-! SUPPORT. How effects compose: a meaning is a chain of register writes, flag writes, accesses and tallies, and each link
extends what the chain so far has done. -/

namespace Sys2Proof.Machine

/-! ## Register writes -/

theorem lastWrite_snoc (l : List (Reg × Word)) (j : Reg) (v : Word) (i : Reg) :
    lastWrite (l ++ [(j, v)]) i = if j = i then some v else lastWrite l i := by
  unfold lastWrite
  by_cases h : j = i <;> simp [h]

@[simp] theorem lastWrite_nil (i : Reg) : lastWrite [] i = none := rfl

theorem RegWrites.refl (s : State) : RegWrites s [] s :=
  ⟨fun _ _ _ => rfl, fun _ _ _ h => by simp at h, fun _ => ⟨rfl, rfl⟩, fun _ h => by simp at h⟩

theorem State.setX_get_pc (s : State) {p : PhysReg} (hp : p ≠ .r15) (v : Word) :
    (s.setX 15#4 v).cpu.regs.get p = s.cpu.regs.get p := by
  cases p <;> first | rfl | exact absurd rfl hp

theorem State.setX_get (s : State) {i : Reg} (hi : i ≠ 15#4) (v : Word) (p : PhysReg) :
    (s.setX i v).cpu.regs.get p = if p = phys s.mode i then v else s.cpu.regs.get p := by
  rw [State.setX_of_ne s hi]
  exact Regs.get_set _ _ _ _

theorem State.setX_r15 (s : State) {i : Reg} (hi : i ≠ 15#4) (v : Word) : (s.setX i v).r15 = s.r15 := by
  rw [State.setX_of_ne s hi]
  exact Regs.r15_set_other _ (phys_ne_r15 _ hi) _

theorem State.setX_latchValid (s : State) {i : Reg} (hi : i ≠ 15#4) (v : Word) :
    (s.setX i v).cpu.latchValid = s.cpu.latchValid := by
  rw [State.setX_of_ne s hi]; rfl

/-- One more register written, in the mode and state of the start. -/
theorem RegWrites.snoc {s t : State} {l : List (Reg × Word)} (h : RegWrites s l t) (hm : t.mode = s.mode)
    (ht : t.thumb = s.thumb) (i : Reg) (v : Word) : RegWrites s (l ++ [(i, v)]) (t.setX i v) := by
  by_cases hi : i = 15#4
  · subst hi
    refine ⟨?_, ?_, ?_, ?_⟩
    · intro p hp hw
      rw [State.setX_get_pc t hp]
      exact h.others p hp fun w hw' => hw w (by simp [hw'])
    · intro j u hj hlast
      rw [lastWrite_snoc, if_neg (Ne.symm hj)] at hlast
      rw [State.setX_get_pc t (phys_ne_r15 _ hj)]
      exact h.written j u hj hlast
    · intro hlast
      rw [lastWrite_snoc] at hlast
      simp at hlast
    · intro u hlast
      rw [lastWrite_snoc] at hlast
      simp only [if_true, Option.some.injEq] at hlast
      subst hlast
      exact ⟨by simp [State.r15, State.writePc, ht], rfl⟩
  · refine ⟨?_, ?_, ?_, ?_⟩
    · intro p hp hw
      rw [State.setX_get t hi, hm, if_neg (hw (i, v) (by simp))]
      exact h.others p hp fun w hw' => hw w (by simp [hw'])
    · intro j u hj hlast
      rw [lastWrite_snoc] at hlast
      rw [State.setX_get t hi, hm]
      by_cases hij : i = j
      · subst hij
        simp only [if_true, Option.some.injEq] at hlast ⊢
        exact hlast
      · rw [if_neg hij] at hlast
        rw [if_neg fun e => hij (phys_inj _ e).symm]
        exact h.written j u hj hlast
    · intro hlast
      rw [lastWrite_snoc, if_neg hi] at hlast
      rw [State.setX_r15 t hi, State.setX_latchValid t hi]
      exact h.pcKept hlast
    · intro u hlast
      rw [lastWrite_snoc, if_neg hi] at hlast
      rw [State.setX_r15 t hi, State.setX_latchValid t hi]
      exact h.pcWritten u hlast

/-- Register writes say nothing of what is not a register. -/
theorem RegWrites.congr {s t u : State} {l : List (Reg × Word)} (h : RegWrites s l t) (hr : u.cpu.regs = t.cpu.regs)
    (hl : u.cpu.latchValid = t.cpu.latchValid) : RegWrites s l u := by
  refine ⟨?_, ?_, ?_, ?_⟩
  · intro p hp hw; rw [hr]; exact h.others p hp hw
  · intro i v hi hv; rw [hr]; exact h.written i v hi hv
  · intro hn; rw [State.r15, hr, hl]; exact h.pcKept hn
  · intro v hv; rw [State.r15, hr, hl]; exact h.pcWritten v hv

/-! ## Effects -/

theorem SameControl.refl (s : State) : SameControl s s := ⟨rfl, rfl, rfl, rfl, rfl, rfl, rfl, rfl⟩

theorem SameBus.of_eq {s t : State} (h : t.bus = s.bus) : SameBus s t := ⟨h, fun r a => by rw [h]⟩

/-- Nothing has happened yet. -/
theorem Effect.refl (s : State) : Effect s [] s.nzcv 0 s :=
  ⟨RegWrites.refl s, rfl, fun _ _ => rfl, rfl, rfl, SameControl.refl s⟩

variable {s t : State} {l : List (Reg × Word)} {fl : Bool × Bool × Bool × Bool} {k : Nat}

theorem modeField_of_low {p q : Word} (h : ∀ k, k < 28 → p.getLsbD k = q.getLsbD k) : modeField p = modeField q := by
  apply BitVec.eq_of_getLsbD_eq
  intro j hj
  simp only [modeField, BitVec.getLsbD_extractLsb', hj, decide_true, Bool.true_and]
  exact h _ (by omega)

theorem Effect.mode (h : Effect s l fl k t) : t.mode = s.mode := by
  simp only [State.mode, modeOf, modeField_of_low h.status]

theorem Effect.thumb (h : Effect s l fl k t) : t.thumb = s.thumb := h.status 5 (by omega)

/-- A register is written. -/
theorem Effect.setX (h : Effect s l fl k t) (i : Reg) (v : Word) : Effect s (l ++ [(i, v)]) fl k (t.setX i v) where
  regs := h.regs.snoc h.mode h.thumb i v
  flags := by simpa [State.nzcv] using h.flags
  status := by simpa [SameStatusButFlags] using h.status
  spsr := by simpa using h.spsr
  cycles := by simpa using h.cycles
  control := ⟨by simpa using h.control.1, by simpa using h.control.2, by simpa using h.control.3, by simpa using h.control.4,
    by simpa using h.control.5, by simpa using h.control.6, by simpa using h.control.7, by simpa using h.control.8⟩

/-- A write of the program counter is a write of r15. -/
theorem Effect.writePc (h : Effect s l fl k t) (v : Word) : Effect s (l ++ [(15#4, v)]) fl k (t.writePc v) := h.setX 15#4 v

/-- Cycles are tallied. -/
theorem Effect.tally (h : Effect s l fl k t) (n : Nat) : Effect s l fl (k + n) (t.tally n) where
  regs := h.regs.congr rfl rfl
  flags := h.flags
  status := h.status
  spsr := h.spsr
  cycles := by show t.cycles + n = _; rw [h.cycles]; omega
  control := ⟨h.control.1, h.control.2, h.control.3, h.control.4, h.control.5, h.control.6, h.control.7, h.control.8⟩

/-- N, Z, C, V are written. -/
theorem Effect.setNZCV (h : Effect s l fl k t) (n z c v : Bool) : Effect s l (n, z, c, v) k (t.setNZCV n z c v) where
  regs := h.regs.congr rfl rfl
  flags := by
    simp only [State.nzcv, State.flagN, State.flagZ, State.flagC, State.flagV, State.setNZCV, State.setCpsr,
      withFlags_n, withFlags_z, withFlags_c, withFlags_v]
  status := by
    intro j hj
    rw [← h.status j hj]
    exact withFlags_low _ _ _ _ _ _ hj
  spsr := h.spsr
  cycles := h.cycles
  control := ⟨h.control.1, h.control.2, h.control.3, h.control.4, h.control.5, h.control.6, h.control.7, h.control.8⟩

/-- N and Z of a result are written, with the given C and V. -/
theorem Effect.setResultFlags (h : Effect s l fl k t) (r : Word) (c v : Bool) :
    Effect s l (Sys2Proof.Machine.resultFlags r c v) k (t.setResultFlags r c v) := by
  have := h.setNZCV (r.getLsbD 31) (r == 0#32) c v
  have e : Sys2Proof.Machine.resultFlags r c v = (r.getLsbD 31, r == 0#32, c, v) := by
    simp only [Sys2Proof.Machine.resultFlags, BitVec.msb_eq_getLsbD_last]
    rfl
  rw [e]; exact this

/-- What is behind the bus is not part of an effect. -/
theorem Effect.withBus (h : Effect s l fl k t) (b : Bus) : Effect s l fl k { t with bus := b } where
  regs := h.regs.congr rfl rfl
  flags := h.flags
  status := h.status
  spsr := h.spsr
  cycles := h.cycles
  control := ⟨h.control.1, h.control.2, h.control.3, h.control.4, h.control.5, h.control.6, h.control.7, h.control.8⟩

theorem Effect.afterRead (h : Effect s l fl k t) (a : Word) (w : Width) : Effect s l fl k (t.afterRead a w) := h.withBus _

theorem Effect.memWrite (h : Effect s l fl k t) (a : Word) (w : Width) (v : Word) : Effect s l fl k (t.memWrite a w v) :=
  h.withBus _

/-- A first tally counts from 0. -/
theorem Effect.zero_add (h : Effect s l fl (0 + k) t) : Effect s l fl k t := by
  rwa [Nat.zero_add] at h

/-! ## Outcomes -/

theorem conditional_pass {c : Cond} {s : State} (h : s.condPass c = true) (k : State → Result) : conditional c s k = k s := by
  simp [conditional, h]

theorem conditional_fail {c : Cond} {s : State} (h : s.condPass c = false) (k : State → Result) :
    conditional c s k = .next { s with cycles := s.cycles + 1 } := by
  simp [conditional, h, State.tally]

theorem Completes.intro {Q : State → Prop} {r : Result} {t : State} (h : r = .next t) (hq : Q t) : Completes r Q := ⟨t, h, hq⟩

theorem finish_next {s : State} (h : s.bus.refusal = none) : finish s = .next s := by
  simp [finish, h]

/-- A fatal condition sets the latch and nothing else. -/
theorem fatal_spec (f : Fault) (s : State) : ∃ t, fatal f s = .next t ∧ FatalStep s f t :=
  ⟨_, rfl, rfl, rfl, SameBus.of_eq rfl, rfl, rfl, ⟨rfl, rfl, rfl⟩, rfl⟩

end Sys2Proof.Machine
end

