-- ==== Sys2Proof/Laws/Flags.lean ====
section
/-! SUPPORT. The laws of the flag computations: `AddC` in exact arithmetic (`40_arm_data_processing.md` R262). -/

namespace Sys2Proof.Machine

/-- `AddC` is the wrapped sum, C its unsigned and V its signed overflow. -/
theorem addC_sum (a b : Word) (c : Bool) : addC a b c =
   ⟨a + b + (BitVec.ofBool c).setWidth 32, decide (2 ^ 32 ≤ a.toNat + b.toNat + c.toNat),
    decide ((a + b + (BitVec.ofBool c).setWidth 32).toInt ≠ a.toInt + b.toInt + c.toNat)⟩ := by
  have hv : BitVec.ofNat 32 (a.toNat + b.toNat + c.toNat) = a + b + (BitVec.ofBool c).setWidth 32 := by
    apply BitVec.eq_of_toNat_eq
    cases c <;> simp [BitVec.toNat_add]
  unfold addC
  simp only [hv]
  congr 1
  have : ∀ x : Word, x.getLsbD 31 = decide (2^31 ≤ x.toNat) := by
    intro x
    have := x.isLt
    rw [BitVec.getLsbD, Nat.testBit_eq_decide_div_mod_eq]
    congr 1
    apply propext
    omega
  rw [this, this, this]
  rw [BitVec.toInt_eq_toNat_cond, BitVec.toInt_eq_toNat_cond, BitVec.toInt_eq_toNat_cond]
  have ha := a.isLt
  have hb := b.isLt
  have hs : (a + b + (BitVec.ofBool c).setWidth 32).toNat = (a.toNat + b.toNat + c.toNat) % 2^32 := by
    rw [← hv]; simp
  have hc := c.toNat_le
  generalize (a + b + (BitVec.ofBool c).setWidth 32).toNat = sn at *
  generalize c.toNat = cn at *
  generalize a.toNat = an at *
  generalize b.toNat = bn at *
  rw [Bool.eq_iff_iff]
  simp only [Bool.and_eq_true, beq_iff_eq, bne_iff_ne, ne_eq, decide_eq_true_eq, decide_eq_decide]
  split <;> split <;> split <;> omega

/-- Subtraction through `AddC`: C is "no borrow". -/
theorem addC_diff (a b : Word) (c : Bool) : addC a (~~~b) c =
   ⟨a - b - (BitVec.ofBool (!c)).setWidth 32, decide (b.toNat + (!c).toNat ≤ a.toNat),
    decide ((a - b - (BitVec.ofBool (!c)).setWidth 32).toInt ≠ a.toInt - b.toInt - (!c).toNat)⟩ := by
  rw [addC_sum]
  have hv : a + ~~~b + (BitVec.ofBool c).setWidth 32 = a - b - (BitVec.ofBool (!c)).setWidth 32 := by
    cases c <;> simp <;> bv_omega
  have hn : (~~~b).toNat = 2^32 - 1 - b.toNat := by simp [BitVec.toNat_not]
  have hb := b.isLt
  have hi : (~~~b).toInt = - b.toInt - 1 := by
    rw [BitVec.toInt_eq_toNat_cond, BitVec.toInt_eq_toNat_cond, hn]
    split <;> split <;> omega
  rw [hv, hn, hi]
  congr 1
  · congr 1; apply propext; cases c <;> simp <;> omega
  · congr 1; apply propext; cases c <;> simp <;> omega

/-- The sum of a row is `AddC`. -/
theorem addC_sumRow (i : Instr) (a b : Word) (c : Bool) :
    addC a b c = ⟨(sumRow i a b c).value, (sumRow i a b c).carry, (sumRow i a b c).overflow⟩ := addC_sum a b c

/-- The difference of a row is `AddC` of the complement. -/
theorem addC_differenceRow (i : Instr) (a b : Word) (c : Bool) :
    addC a (~~~b) c = ⟨(differenceRow i a b c).value, (differenceRow i a b c).carry, (differenceRow i a b c).overflow⟩ :=
  addC_diff a b c

/-! ## Data processing, said once -/

/-- An operation with Rd, S = 0 or Rd not r15: Rd, the flags with S, the cycles of R281, nothing else. -/
theorem dataProc_spec (op : AluOp) {c : Cond} {sb : Bool} {rn rd : Reg} {o : Operand2} {s : State} (hc : s.condPass c = true)
    (hr : sb = true → rd ≠ 15#4) :
    Completes (dataProc op c sb rn rd o s) (RegisterEffect s [(rd, (s.aluResult op rn o).value)]
      (if sb then resultFlags (s.aluResult op rn o).value (s.aluResult op rn o).carry (s.aluResult op rn o).overflow
        else s.nzcv) (dataProcessingCycles rd o)) := by
  rw [dataProc, conditional_pass hc]
  by_cases h : rd = 15#4
  · have hs : sb = false := by by_contra hne; exact hr (by simpa using hne) h
    subst h hs
    have hk : dataProcessingCycles 15#4 o = 0 + (3 + operand2Cycles o) := by cases o <;> rfl
    rw [hk]
    exact ⟨_, rfl, ((Effect.refl s).writePc _).tally _, SameBus.of_eq rfl⟩
  · have hk : dataProcessingCycles rd o = 0 + (1 + operand2Cycles o) := by cases o <;> simp [dataProcessingCycles, operand2Cycles, h]
    simp only [h, if_false]
    refine ⟨_, rfl, ?_, SameBus.of_eq ?_⟩
    · rw [hk]
      cases sb
      · exact ((Effect.refl s).setX rd _).tally _
      · exact (((Effect.refl s).setX rd _).setResultFlags _ _ _).tally _
    · cases sb <;> simp [State.setFlagsIf, State.setResultFlags, State.setNZCV]

/-- An operation without Rd: the flags, the cycles of R281, nothing else. -/
theorem dataTest_spec (op : AluOp) {c : Cond} {rn : Reg} {o : Operand2} {s : State} (hc : s.condPass c = true) :
    Completes (dataTest op c rn o s) (RegisterEffect s []
      (resultFlags (s.aluResult op rn o).value (s.aluResult op rn o).carry (s.aluResult op rn o).overflow)
      (dataProcessingCycles 0#4 o)) := by
  rw [dataTest, conditional_pass hc]
  have hk : dataProcessingCycles 0#4 o = 0 + (1 + operand2Cycles o) := by cases o <;> rfl
  rw [hk]
  exact ⟨_, rfl, ((Effect.refl s).setResultFlags _ _ _).tally _, SameBus.of_eq rfl⟩

/-- A Thumb operation with Rd. -/
theorem thumbWrite_spec (rd : LoReg) (r : AluOut) (k : Nat) (s : State) :
    Completes (thumbWrite rd r k s) (RegisterEffect s [(lo rd, r.value)] (resultFlags r.value r.carry r.overflow) k) := by
  refine ⟨_, rfl, ((((Effect.refl s).setX _ _).setResultFlags _ _ _).tally k).zero_add, SameBus.of_eq ?_⟩
  simp [State.setResultFlags, State.setNZCV]

/-- A Thumb operation without Rd. -/
theorem thumbTest_spec (r : AluOut) (s : State) :
    Completes (thumbTest r s) (RegisterEffect s [] (resultFlags r.value r.carry r.overflow) 1) :=
  ⟨_, rfl, ((Effect.refl s).setResultFlags _ _ _).tally 1, SameBus.of_eq rfl⟩

end Sys2Proof.Machine
end

