-- ==== Sys2Proof/Laws/Invariant.lean ====
section
/-! SUPPORT. Every access, transfer and timer batch keeps the invariant of what is behind the bus. -/

namespace Sys2Proof.Machine

/-! ## Four like things -/

theorem Four.forall_set {α : Type} {P : α → Prop} {f : Four α} (h : ∀ i, P (f.get i)) (c : Fin 4) {v : α} (hv : P v) :
    ∀ i, P ((f.set c v).get i) := by
  intro i
  have h0 := h 0; have h1 := h 1; have h2 := h 2; have h3 := h 3
  fin_cases c <;> fin_cases i <;> assumption

/-! ## DMA channels and timers -/

theorem Width.align_even {w : Width} (hw : w ≠ .byte) (a : Word) : (w.align a).getLsbD 0 = false := by
  cases w
  · exact absurd rfl hw
  · simp only [Width.align, BitVec.getLsbD_and]; simp
  · simp only [Width.align, BitVec.getLsbD_and]; simp

theorem add_even {a b : Word} (ha : a.getLsbD 0 = false) (hb : b.getLsbD 0 = false) : (a + b).getLsbD 0 = false := by
  have e : ∀ v : Word, v.getLsbD 0 = decide (v.toNat % 2 = 1) := by
    intro v; simp only [BitVec.getLsbD, Nat.testBit_zero]
  rw [e] at *
  simp only [decide_eq_false_iff_not, BitVec.toNat_add] at *
  omega

theorem DmaChannel.sstep_even (d : DmaChannel) {w : Width} (hw : w ≠ .byte) : (d.sstep w).getLsbD 0 = false := by
  unfold DmaChannel.sstep
  cases w <;> first | exact absurd rfl hw | (split <;> decide)

theorem DmaChannel.dstep_even (d : DmaChannel) {w : Width} (hw : w ≠ .byte) : (d.dstep w).getLsbD 0 = false := by
  unfold DmaChannel.dstep
  cases w <;> first | exact absurd rfl hw | (split <;> decide)

theorem dmaCount_le (c : Fin 4) (d : DmaChannel) : dmaCount c d ≤ 0x10000 := by
  unfold dmaCount
  have := d.cntL.isLt
  split
  · omega
  · split <;> omega

theorem DmaChannel.latch_ok (c : Fin 4) (d : DmaChannel) (h : d.Ok) : (dmaLatch c d).Ok :=
  ⟨h.reserved, dmaCount_le c d, Width.align_even d.width_ne_byte _, Width.align_even d.width_ne_byte _⟩

theorem DmaChannel.advance_ok (d : DmaChannel) {w : Width} (hw : w ≠ .byte) (h : d.Ok) : (d.advance w).Ok :=
  ⟨h.reserved, le_trans (Nat.sub_le _ _) h.remaining, add_even h.srcEven (d.sstep_even hw),
    add_even h.dstEven (d.dstep_even hw)⟩

theorem DmaChannel.complete_ok (c : Fin 4) (d : DmaChannel) (h : d.Ok) : (dmaCompleteChannel c d).Ok := by
  unfold dmaCompleteChannel
  split
  · refine ⟨h.reserved, dmaCount_le c d, h.srcEven, ?_⟩
    simp only
    split
    · exact Width.align_even d.width_ne_byte _
    · exact h.dstEven
  · refine ⟨?_, h.remaining, h.srcEven, h.dstEven⟩
    have := h.reserved
    simp only
    rw [BitVec.and_assoc, BitVec.and_comm 0x7FFF#16, ← BitVec.and_assoc, this, BitVec.zero_and]

/-- Masking after a lane write keeps clear bits clear. -/
theorem setLane_reserved (v : BitVec 16) (k : Nat) (b : Byte) (m : BitVec 16) (h : v &&& m = 0#16)
    (hb : k < 2 → ∀ j, j < 8 → m.getLsbD (8 * k + j) = true → b.getLsbD j = false) : setLane v k b &&& m = 0#16 := by
  apply BitVec.eq_of_getLsbD_eq
  intro j hj
  have h' := congrArg (fun x => x.getLsbD j) h
  simp only [BitVec.getLsbD_and, BitVec.getLsbD_zero] at h'
  simp only [setLane, BitVec.getLsbD_and, BitVec.getLsbD_or, BitVec.getLsbD_not, BitVec.getLsbD_shiftLeft,
    BitVec.getLsbD_zero, BitVec.getLsbD_setWidth]
  by_cases hm : m.getLsbD j = true
  · have hv : v.getLsbD j = false := by simpa [hm] using h'
    by_cases hlt : j < 8 * k
    · simp [hv, hlt]
    · by_cases h8 : j - 8 * k < 8
      · have := hb (by omega) (j - 8 * k) h8 (by rw [← hm]; congr 1; omega)
        simp [hv, this]
      · have : b.getLsbD (j - 8 * k) = false := BitVec.getLsbD_of_ge _ _ (by omega)
        simp [hv, this]
  · simp [Bool.eq_false_iff.mpr hm]

theorem Timer.count_ok (t : Timer) (f : Bool) (d carry : Nat) (h : t.Ok) : (t.count f d carry).Ok := by
  unfold Timer.count
  split
  · exact ⟨h.reserved, h.acc⟩
  · refine ⟨h.reserved, ?_⟩
    simp only [Nat.shiftRight_eq_div_pow, Nat.shiftLeft_eq]
    have hs : t.shift ≤ 10 := by unfold Timer.shift; split <;> omega
    have hp : 2 ^ t.shift ≤ 2 ^ 10 := Nat.pow_le_pow_right (by omega) hs
    have := Nat.mod_lt (t.acc + d) (Nat.two_pow_pos t.shift)
    have e := Nat.div_add_mod (t.acc + d) (2 ^ t.shift)
    rw [Nat.mul_comm] at e
    omega

theorem Timer.writeControl_ok (t : Timer) (v : Byte) (h : t.Ok) : (t.writeControl v).Ok := by
  have e : v &&& 0xC7#8 &&& 0x38#8 = 0#8 := by rw [BitVec.and_assoc]; simp
  unfold Timer.writeControl
  simp only
  split
  · exact ⟨e, by simp⟩
  · exact ⟨e, h.acc⟩

/-! ## The EEPROM -/

theorem eepromAddr_aligned (n : Nat) : BitVec.ofNat 13 (n * 8) &&& 7#13 = 0#13 := by
  apply BitVec.eq_of_toNat_eq
  simp only [BitVec.toNat_and, BitVec.toNat_ofNat]
  rw [show (7 % 2 ^ 13 : Nat) = 2 ^ 3 - 1 from rfl, Nat.and_two_pow_sub_one_eq_mod]
  omega

theorem Eeprom.shiftIn_ok (e : Eeprom) (bit : Bool) (h : e.Ok) : (e.shiftIn bit).Ok := by
  unfold Eeprom.shiftIn
  simp only
  split
  · exact ⟨h.store, by simp only; omega, h.readIdx, h.addr, h.readAddr⟩
  · exact ⟨h.store, h.idx, h.readIdx, h.addr, h.readAddr⟩

theorem Eeprom.request_ok (e : Eeprom) (len n : Nat) (h : e.Ok) : (e.request len n).Ok := by
  have hs := Eeprom.request_wf e len n h.store
  revert hs
  unfold Eeprom.request
  simp only
  split
  · exact fun hs => ⟨hs, h.idx, by simp, eepromAddr_aligned _, eepromAddr_aligned _⟩
  · split
    · exact fun hs => ⟨hs, h.idx, by simp, eepromAddr_aligned _, h.readAddr⟩
    · exact fun _ => h

theorem Eeprom.writeBit_ok (e : Eeprom) (bit : Bool) (h : e.Ok) : (e.writeBit bit).Ok := by
  have h1 := Eeprom.shiftIn_ok e bit h
  unfold Eeprom.writeBit Eeprom.complete
  simp only
  split
  · split
    · split
      · have h2 := fun len n => Eeprom.request_ok (e.shiftIn bit) len n h1
        exact ⟨(h2 _ _).store, by simp, (h2 _ _).readIdx, (h2 _ _).addr, (h2 _ _).readAddr⟩
      · exact ⟨h1.store, by simp, h1.readIdx, h1.addr, h1.readAddr⟩
    · exact h1
  · exact h1

theorem Eeprom.supplyBit_ok (m : BusMaster) (e : Eeprom) (bit : Bool) (h : e.Ok) : (e.supplyBit m bit).Ok := by
  cases m
  · exact Eeprom.shiftIn_ok e bit h
  · exact Eeprom.writeBit_ok e bit h

theorem Eeprom.afterRead_ok (e : Eeprom) (h : e.Ok) : e.afterRead.Ok := by
  unfold Eeprom.afterRead
  split
  · exact ⟨h.store, h.idx, by simp only; omega, h.addr, h.readAddr⟩
  · exact h

/-! ## The bus -/

theorem Bus.Ok.withIo {b : Bus} (h : b.Ok) {io : Io} (hio : io.Ok) (hw : io.waitcnt = b.io.waitcnt) :
    Bus.Ok { b with io := io } :=
  ⟨h.mem, h.flash, h.eeprom, hio, by rw [h.wait]; exact congrArg _ hw.symm⟩

theorem Bus.Ok.updDma {b : Bus} (h : b.Ok) (c : Fin 4) {f : DmaChannel → DmaChannel} (hf : ∀ d, d.Ok → (f d).Ok) :
    Bus.Ok (Machine.updDma c f b) :=
  h.withIo { h.io with dma := Four.forall_set h.io.dma c (hf _ (h.io.dma c)) } rfl

theorem Bus.Ok.updTimer {b : Bus} (h : b.Ok) (c : Fin 4) {f : Timer → Timer} (hf : ∀ d, d.Ok → (f d).Ok) :
    Bus.Ok (Machine.updTimer c f b) :=
  h.withIo { h.io with timer := Four.forall_set h.io.timer c (hf _ (h.io.timer c)) } rfl

theorem Bus.Ok.raiseIrq {b : Bus} (h : b.Ok) {k : Nat} (hk : k < 14) : (Machine.raiseIrq k b).Ok := by
  refine h.withIo { h.io with irf := ?_ } rfl
  apply BitVec.eq_of_getLsbD_eq
  intro j hj
  have h' := congrArg (fun x => x.getLsbD j) h.io.irf
  simp only [BitVec.getLsbD_and, BitVec.getLsbD_zero] at h'
  simp only [BitVec.getLsbD_and, BitVec.getLsbD_or, BitVec.getLsbD_zero, BitVec.getLsbD_shiftLeft, BitVec.getLsbD_one]
  have hm : ∀ j < 16, (0xC000#16).getLsbD j = decide (14 ≤ j) := by decide
  rw [hm j hj] at *
  by_cases h14 : 14 ≤ j
  · simp only [h14, decide_true, Bool.and_true] at h' ⊢
    rw [h']
    simp; omega
  · simp [h14]

theorem mergeBits_reserved (mask m : Byte) (hm : mask &&& m = 0#8) (old v : Byte) (j : Nat) (hj : m.getLsbD j = true)
    (ho : old.getLsbD j = false) : (mergeBits mask old v).getLsbD j = false := by
  have h' := congrArg (fun x => x.getLsbD j) hm
  simp only [BitVec.getLsbD_and, BitVec.getLsbD_zero, hj, Bool.and_true] at h'
  simp [mergeBits, ho, h']

theorem ioWriteByte_busOk (edge : Fin 4 → Bus → Bus) (r15 : Word) (off : Nat) (v : Byte) (b : Bus)
    (he : ∀ c b, Bus.Ok b → Bus.Ok (edge c b)) (h : b.Ok) : (ioWriteByte edge r15 off v b).Ok := by
  have chan : ∀ (d : DmaChannel) (k : Nat), d.Ok → (d.writeCntH k v).Ok := by
    intro d k hd
    refine ⟨setLane_reserved _ _ _ _ hd.reserved ?_, hd.remaining, hd.srcEven, hd.dstEven⟩
    intro hk j hj hm
    interval_cases k
    · have : ∀ j < 8, (0x001F#16).getLsbD (8 * 0 + j) = true → (0xE0#8).getLsbD j = false := by decide
      simp [this j hj hm]
    · have : ∀ j < 8, (0x001F#16).getLsbD (8 * 1 + j) = false := by decide
      rw [this j hj] at hm; cases hm
  unfold ioWriteByte
  cases ioLane off
  case dispcnt k => exact h.withIo { h.io with } rfl
  case dispstat k =>
    refine h.withIo { h.io with dispstat := setLane_reserved _ _ _ _ h.io.dispstat ?_ } rfl
    intro hk j hj hm
    interval_cases k
    · have hb : (lane b.io.dispstat 0).getLsbD j = false := by
        have h' := congrArg (fun x => x.getLsbD (8 * 0 + j)) h.io.dispstat
        simp only [BitVec.getLsbD_and, hm, Bool.and_true, BitVec.getLsbD_zero] at h'
        simp only [lane, BitVec.getLsbD_extractLsb', h', Bool.and_false]
      have hm' : (0xC0#8).getLsbD j = true := by
        have : ∀ j < 8, (0x00C0#16).getLsbD (8 * 0 + j) = (0xC0#8).getLsbD j := by decide
        rw [← this j hj]; exact hm
      exact mergeBits_reserved 0x38#8 0xC0#8 (by decide) _ _ j hm' hb
    · have : ∀ j < 8, (0x00C0#16).getLsbD (8 * 1 + j) = false := by decide
      rw [this j hj] at hm; cases hm
  case vcount k => exact h
  case soundcntH k =>
    refine h.withIo ?_ (by simp only [writeSoundcntH]; split <;> rfl)
    unfold writeSoundcntH
    split
    · refine { h.io with soundcntH := setLane_reserved _ _ _ _ h.io.soundcntH ?_ }
      intro _ j hj hm
      have : ∀ j < 8, (0x8800#16).getLsbD (8 * 0 + j) = false := by decide
      rw [this j hj] at hm; cases hm
    · refine { h.io with soundcntH := setLane_reserved _ _ _ _ h.io.soundcntH ?_, fifoA := ?_, fifoB := ?_ }
      · intro _ j hj hm
        have : ∀ j < 8, (0x8800#16).getLsbD (8 * 1 + j) = true → (0x77#8).getLsbD j = false := by decide
        simp [this j hj hm]
      · simp only; split
        · omega
        · exact h.io.fifoA
      · simp only; split
        · omega
        · exact h.io.fifoB
  case fifoA => exact h.withIo { h.io with fifoA := Nat.min_le_left _ _ } rfl
  case fifoB => exact h.withIo { h.io with fifoB := Nat.min_le_left _ _ } rfl
  case dmaSad c k => exact h.updDma c fun d hd => ⟨hd.reserved, hd.remaining, hd.srcEven, hd.dstEven⟩
  case dmaDad c k => exact h.updDma c fun d hd => ⟨hd.reserved, hd.remaining, hd.srcEven, hd.dstEven⟩
  case dmaCntL c k => exact h.updDma c fun d hd => ⟨hd.reserved, hd.remaining, hd.srcEven, hd.dstEven⟩
  case dmaCntH c k =>
    simp only
    split
    · exact he _ _ (h.updDma c fun d hd => chan d k hd)
    · exact h.updDma c fun d hd => chan d k hd
  case tmCntL t k => exact h.updTimer t fun d hd => ⟨hd.reserved, hd.acc⟩
  case tmCntH t k =>
    simp only
    split
    · exact h.updTimer t fun d hd => Timer.writeControl_ok d v hd
    · exact h
  case keyinput k => exact h
  case keycnt k => exact h.withIo { h.io with } rfl
  case ie k =>
    refine h.withIo { h.io with ie := setLane_reserved _ _ _ _ h.io.ie ?_ } rfl
    intro hk j hj hm
    interval_cases k
    · have : ∀ j < 8, (0xC000#16).getLsbD (8 * 0 + j) = false := by decide
      rw [this j hj] at hm; cases hm
    · have : ∀ j < 8, (0xC000#16).getLsbD (8 * 1 + j) = true → (0x3F#8).getLsbD j = false := by decide
      simp [this j hj hm]
  case irf k =>
    refine h.withIo { h.io with irf := setLane_reserved _ _ _ _ h.io.irf ?_ } rfl
    intro hk j hj hm
    have h' := congrArg (fun x => x.getLsbD (8 * k + j)) h.io.irf
    simp only [BitVec.getLsbD_and, hm, Bool.and_true, BitVec.getLsbD_zero] at h'
    simp [lane, h']
  case waitcnt k =>
    refine ⟨h.mem, h.flash, h.eeprom, { h.io with waitcnt := setLane_reserved _ _ _ _ h.io.waitcnt ?_ }, rfl⟩
    intro hk j hj hm
    interval_cases k
    · have : ∀ j < 8, (0xA000#16).getLsbD (8 * 0 + j) = false := by decide
      rw [this j hj] at hm; cases hm
    · have : ∀ j < 8, (0xA000#16).getLsbD (8 * 1 + j) = true → (waitcntMask 1).getLsbD j = false := by decide
      simp [this j hj hm]
  case ime k =>
    simp only
    split
    · exact h.withIo { h.io with } rfl
    · exact h
  case postflg => exact h.withIo { h.io with } rfl
  case haltcnt => exact ⟨h.mem, h.flash, h.eeprom, h.io, h.wait⟩
  case other off =>
    simp only
    split
    · split
      · exact h.withIo { h.io with other := Memory.write_wf _ _ _ h.io.other } rfl
      · exact h
    · exact h

/-- What any access, transfer or timer batch leaves behind the bus meets the invariant. -/
theorem busOk_stable : BusStable Bus.Ok where
  mem b i v h := ⟨Memory.write_wf _ _ _ h.mem, h.flash, h.eeprom, h.io, h.wait⟩
  flash b a v h := ⟨h.mem, Flash.writeByte_wf _ _ _ h.flash, h.eeprom, h.io, h.wait⟩
  eepromWrite b m bit h := ⟨h.mem, h.flash, Eeprom.supplyBit_ok m _ _ h.eeprom, h.io, h.wait⟩
  eepromRead b h := ⟨h.mem, h.flash, Eeprom.afterRead_ok _ h.eeprom, h.io, h.wait⟩
  eepromFrame b n h := ⟨h.mem, h.flash, { h.eeprom with idx := by simp }, h.io, h.wait⟩
  io edge r15 off v b he h := ioWriteByte_busOk edge r15 off v b he h
  latch c b h := h.updDma c fun d hd => d.latch_ok c hd
  advance c w b hw h := h.updDma c fun d hd => d.advance_ok hw hd
  fifoStep c b h := h.updDma c fun d hd =>
    ⟨hd.reserved, hd.remaining, add_even hd.srcEven (d.sstep_even (by simp)), hd.dstEven⟩
  complete c b h := h.updDma c fun d hd => d.complete_ok c hd
  irq k b hk h := h.raiseIrq hk
  cost b n h := ⟨h.mem, h.flash, h.eeprom, h.io, h.wait⟩
  refuse b c h := ⟨h.mem, h.flash, h.eeprom, h.io, h.wait⟩
  count t f d carry b h := h.updTimer t fun x hx => x.count_ok f d carry hx
  wrap t b h := h.updTimer t fun x hx => ⟨hx.reserved, hx.acc⟩
  loadA b h := h.withIo { h.io with fifoA := le_trans (Nat.sub_le _ _) h.io.fifoA } rfl
  loadB b h := h.withIo { h.io with fifoB := le_trans (Nat.sub_le _ _) h.io.fifoB } rfl

end Sys2Proof.Machine
end

