-- ==== Sys2Proof/Laws/PerInstr.lean ====
section
/-! SUPPORT. Laws proved per instruction. -/

namespace Sys2Proof.Laws

/-- An instruction is encoded in two bytes in Thumb state and in four in ARM state (spec `30_encoding.md` R220). -/
def EncodeLength.Statement (i : Instr) : Prop :=
  (encode i).length = if i.isThumb then 2 else 4

theorem EncodeLength.armBx (c : Cond) (rn : Reg) : EncodeLength.Statement (.armBx c rn) := rfl

theorem EncodeLength.armLdm (c : Cond) (m : BlockMode) (rn : Reg) (list : BitVec 16) : EncodeLength.Statement (.armLdm c m rn list) := rfl

theorem EncodeLength.armStm (c : Cond) (m : BlockMode) (rn : Reg) (list : BitVec 16) : EncodeLength.Statement (.armStm c m rn list) := rfl

theorem EncodeLength.armB (c : Cond) (offset24 : BitVec 24) : EncodeLength.Statement (.armB c offset24) := rfl

theorem EncodeLength.armBl (c : Cond) (offset24 : BitVec 24) : EncodeLength.Statement (.armBl c offset24) := rfl

theorem EncodeLength.armSwi (c : Cond) (comment24 : BitVec 24) : EncodeLength.Statement (.armSwi c comment24) := rfl

theorem EncodeLength.armUnd (c : Cond) : EncodeLength.Statement (.armUnd c) := rfl

theorem EncodeLength.armLdr (c : Cond) (ix : Indexing) (rn rd : Reg) (off : Offset12) : EncodeLength.Statement (.armLdr c ix rn rd off) := rfl

theorem EncodeLength.armLdrb (c : Cond) (ix : Indexing) (rn rd : Reg) (off : Offset12) : EncodeLength.Statement (.armLdrb c ix rn rd off) := rfl

theorem EncodeLength.armStr (c : Cond) (ix : Indexing) (rn rd : Reg) (off : Offset12) : EncodeLength.Statement (.armStr c ix rn rd off) := rfl

theorem EncodeLength.armStrb (c : Cond) (ix : Indexing) (rn rd : Reg) (off : Offset12) : EncodeLength.Statement (.armStrb c ix rn rd off) := rfl

theorem EncodeLength.armSwp (c : Cond) (rn rd rm : Reg) : EncodeLength.Statement (.armSwp c rn rd rm) := rfl

theorem EncodeLength.armSwpb (c : Cond) (rn rd rm : Reg) : EncodeLength.Statement (.armSwpb c rn rd rm) := rfl

theorem EncodeLength.armMul (c : Cond) (s : Bool) (rd rs rm : Reg) : EncodeLength.Statement (.armMul c s rd rs rm) := rfl

theorem EncodeLength.armMla (c : Cond) (s : Bool) (rd rn rs rm : Reg) : EncodeLength.Statement (.armMla c s rd rn rs rm) := rfl

theorem EncodeLength.armUmull (c : Cond) (s : Bool) (rdHi rdLo rs rm : Reg) : EncodeLength.Statement (.armUmull c s rdHi rdLo rs rm) := rfl

theorem EncodeLength.armUmlal (c : Cond) (s : Bool) (rdHi rdLo rs rm : Reg) : EncodeLength.Statement (.armUmlal c s rdHi rdLo rs rm) := rfl

theorem EncodeLength.armSmull (c : Cond) (s : Bool) (rdHi rdLo rs rm : Reg) : EncodeLength.Statement (.armSmull c s rdHi rdLo rs rm) := rfl

theorem EncodeLength.armSmlal (c : Cond) (s : Bool) (rdHi rdLo rs rm : Reg) : EncodeLength.Statement (.armSmlal c s rdHi rdLo rs rm) := rfl

theorem EncodeLength.armStrh (c : Cond) (ix : Indexing) (rn rd : Reg) (off : Offset8) : EncodeLength.Statement (.armStrh c ix rn rd off) := rfl

theorem EncodeLength.armLdrh (c : Cond) (ix : Indexing) (rn rd : Reg) (off : Offset8) : EncodeLength.Statement (.armLdrh c ix rn rd off) := rfl

theorem EncodeLength.armLdrsb (c : Cond) (ix : Indexing) (rn rd : Reg) (off : Offset8) : EncodeLength.Statement (.armLdrsb c ix rn rd off) := rfl

theorem EncodeLength.armLdrsh (c : Cond) (ix : Indexing) (rn rd : Reg) (off : Offset8) : EncodeLength.Statement (.armLdrsh c ix rn rd off) := rfl

theorem EncodeLength.armLdrdPosition (c : Cond) (ix : Indexing) (rn rd : Reg) (off : Offset8) : EncodeLength.Statement (.armLdrdPosition c ix rn rd off) := rfl

theorem EncodeLength.armStrdPosition (c : Cond) (ix : Indexing) (rn rd : Reg) (off : Offset8) : EncodeLength.Statement (.armStrdPosition c ix rn rd off) := rfl

theorem EncodeLength.armReservedSh00 (c : Cond) : EncodeLength.Statement (.armReservedSh00 c) := rfl

theorem EncodeLength.armMrs (c : Cond) (spsr : Bool) (rd : Reg) : EncodeLength.Statement (.armMrs c spsr rd) := rfl

theorem EncodeLength.armReservedPsr (c : Cond) : EncodeLength.Statement (.armReservedPsr c) := rfl

theorem EncodeLength.armMsrReg (c : Cond) (spsr : Bool) (fm : BitVec 4) (rm : Reg) : EncodeLength.Statement (.armMsrReg c spsr fm rm) := rfl

theorem EncodeLength.armMsrImm (c : Cond) (spsr : Bool) (fm : BitVec 4) (rot : BitVec 4) (imm8 : BitVec 8) : EncodeLength.Statement (.armMsrImm c spsr fm rot imm8) := rfl

theorem EncodeLength.armAnd (c : Cond) (s : Bool) (rn rd : Reg) (op2 : Operand2) : EncodeLength.Statement (.armAnd c s rn rd op2) := rfl

theorem EncodeLength.armEor (c : Cond) (s : Bool) (rn rd : Reg) (op2 : Operand2) : EncodeLength.Statement (.armEor c s rn rd op2) := rfl

theorem EncodeLength.armSub (c : Cond) (s : Bool) (rn rd : Reg) (op2 : Operand2) : EncodeLength.Statement (.armSub c s rn rd op2) := rfl

theorem EncodeLength.armRsb (c : Cond) (s : Bool) (rn rd : Reg) (op2 : Operand2) : EncodeLength.Statement (.armRsb c s rn rd op2) := rfl

theorem EncodeLength.armAdd (c : Cond) (s : Bool) (rn rd : Reg) (op2 : Operand2) : EncodeLength.Statement (.armAdd c s rn rd op2) := rfl

theorem EncodeLength.armAdc (c : Cond) (s : Bool) (rn rd : Reg) (op2 : Operand2) : EncodeLength.Statement (.armAdc c s rn rd op2) := rfl

theorem EncodeLength.armSbc (c : Cond) (s : Bool) (rn rd : Reg) (op2 : Operand2) : EncodeLength.Statement (.armSbc c s rn rd op2) := rfl

theorem EncodeLength.armRsc (c : Cond) (s : Bool) (rn rd : Reg) (op2 : Operand2) : EncodeLength.Statement (.armRsc c s rn rd op2) := rfl

theorem EncodeLength.armTst (c : Cond) (rn : Reg) (op2 : Operand2) : EncodeLength.Statement (.armTst c rn op2) := rfl

theorem EncodeLength.armTeq (c : Cond) (rn : Reg) (op2 : Operand2) : EncodeLength.Statement (.armTeq c rn op2) := rfl

theorem EncodeLength.armCmp (c : Cond) (rn : Reg) (op2 : Operand2) : EncodeLength.Statement (.armCmp c rn op2) := rfl

theorem EncodeLength.armCmn (c : Cond) (rn : Reg) (op2 : Operand2) : EncodeLength.Statement (.armCmn c rn op2) := rfl

theorem EncodeLength.armOrr (c : Cond) (s : Bool) (rn rd : Reg) (op2 : Operand2) : EncodeLength.Statement (.armOrr c s rn rd op2) := rfl

theorem EncodeLength.armMov (c : Cond) (s : Bool) (rd : Reg) (op2 : Operand2) : EncodeLength.Statement (.armMov c s rd op2) := rfl

theorem EncodeLength.armBic (c : Cond) (s : Bool) (rn rd : Reg) (op2 : Operand2) : EncodeLength.Statement (.armBic c s rn rd op2) := rfl

theorem EncodeLength.armMvn (c : Cond) (s : Bool) (rd : Reg) (op2 : Operand2) : EncodeLength.Statement (.armMvn c s rd op2) := rfl

theorem EncodeLength.armNoClassCoprocTransfer (c : Cond) : EncodeLength.Statement (.armNoClassCoprocTransfer c) := rfl

theorem EncodeLength.armNoClassCoprocOperation (c : Cond) : EncodeLength.Statement (.armNoClassCoprocOperation c) := rfl

theorem EncodeLength.thumbSwi (value8 : BitVec 8) : EncodeLength.Statement (.thumbSwi value8) := rfl

theorem EncodeLength.thumbB (off11 : BitVec 11) : EncodeLength.Statement (.thumbB off11) := rfl

theorem EncodeLength.thumbBcond (c : Cond) (soff8 : BitVec 8) : EncodeLength.Statement (.thumbBcond c soff8) := rfl

theorem EncodeLength.thumbStmia (rb : LoReg) (list : BitVec 8) : EncodeLength.Statement (.thumbStmia rb list) := rfl

theorem EncodeLength.thumbLdmia (rb : LoReg) (list : BitVec 8) : EncodeLength.Statement (.thumbLdmia rb list) := rfl

theorem EncodeLength.thumbBlFirst (off11 : BitVec 11) : EncodeLength.Statement (.thumbBlFirst off11) := rfl

theorem EncodeLength.thumbBlSecond (off11 : BitVec 11) : EncodeLength.Statement (.thumbBlSecond off11) := rfl

theorem EncodeLength.thumbAddSp (imm7 : BitVec 7) : EncodeLength.Statement (.thumbAddSp imm7) := rfl

theorem EncodeLength.thumbSubSp (imm7 : BitVec 7) : EncodeLength.Statement (.thumbSubSp imm7) := rfl

theorem EncodeLength.thumbPush (lr : Bool) (list : BitVec 8) : EncodeLength.Statement (.thumbPush lr list) := rfl

theorem EncodeLength.thumbPop (pc : Bool) (list : BitVec 8) : EncodeLength.Statement (.thumbPop pc list) := rfl

theorem EncodeLength.thumbStrhImm (imm5 : BitVec 5) (rb rd : LoReg) : EncodeLength.Statement (.thumbStrhImm imm5 rb rd) := rfl

theorem EncodeLength.thumbLdrhImm (imm5 : BitVec 5) (rb rd : LoReg) : EncodeLength.Statement (.thumbLdrhImm imm5 rb rd) := rfl

theorem EncodeLength.thumbStrSp (rd : LoReg) (imm8 : BitVec 8) : EncodeLength.Statement (.thumbStrSp rd imm8) := rfl

theorem EncodeLength.thumbLdrSp (rd : LoReg) (imm8 : BitVec 8) : EncodeLength.Statement (.thumbLdrSp rd imm8) := rfl

theorem EncodeLength.thumbAddRdPc (rd : LoReg) (imm8 : BitVec 8) : EncodeLength.Statement (.thumbAddRdPc rd imm8) := rfl

theorem EncodeLength.thumbAddRdSp (rd : LoReg) (imm8 : BitVec 8) : EncodeLength.Statement (.thumbAddRdSp rd imm8) := rfl

theorem EncodeLength.thumbStrImm (imm5 : BitVec 5) (rb rd : LoReg) : EncodeLength.Statement (.thumbStrImm imm5 rb rd) := rfl

theorem EncodeLength.thumbLdrImm (imm5 : BitVec 5) (rb rd : LoReg) : EncodeLength.Statement (.thumbLdrImm imm5 rb rd) := rfl

theorem EncodeLength.thumbStrbImm (imm5 : BitVec 5) (rb rd : LoReg) : EncodeLength.Statement (.thumbStrbImm imm5 rb rd) := rfl

theorem EncodeLength.thumbLdrbImm (imm5 : BitVec 5) (rb rd : LoReg) : EncodeLength.Statement (.thumbLdrbImm imm5 rb rd) := rfl

theorem EncodeLength.thumbStrReg (ro rb rd : LoReg) : EncodeLength.Statement (.thumbStrReg ro rb rd) := rfl

theorem EncodeLength.thumbStrbReg (ro rb rd : LoReg) : EncodeLength.Statement (.thumbStrbReg ro rb rd) := rfl

theorem EncodeLength.thumbLdrReg (ro rb rd : LoReg) : EncodeLength.Statement (.thumbLdrReg ro rb rd) := rfl

theorem EncodeLength.thumbLdrbReg (ro rb rd : LoReg) : EncodeLength.Statement (.thumbLdrbReg ro rb rd) := rfl

theorem EncodeLength.thumbStrhReg (ro rb rd : LoReg) : EncodeLength.Statement (.thumbStrhReg ro rb rd) := rfl

theorem EncodeLength.thumbLdsbReg (ro rb rd : LoReg) : EncodeLength.Statement (.thumbLdsbReg ro rb rd) := rfl

theorem EncodeLength.thumbLdrhReg (ro rb rd : LoReg) : EncodeLength.Statement (.thumbLdrhReg ro rb rd) := rfl

theorem EncodeLength.thumbLdshReg (ro rb rd : LoReg) : EncodeLength.Statement (.thumbLdshReg ro rb rd) := rfl

theorem EncodeLength.thumbLdrPc (rd : LoReg) (imm8 : BitVec 8) : EncodeLength.Statement (.thumbLdrPc rd imm8) := rfl

theorem EncodeLength.thumbAddHi (rd rs : Reg) : EncodeLength.Statement (.thumbAddHi rd rs) := rfl

theorem EncodeLength.thumbCmpHi (rd rs : Reg) : EncodeLength.Statement (.thumbCmpHi rd rs) := rfl

theorem EncodeLength.thumbMovHi (rd rs : Reg) : EncodeLength.Statement (.thumbMovHi rd rs) := rfl

theorem EncodeLength.thumbBx (rs : Reg) : EncodeLength.Statement (.thumbBx rs) := rfl

theorem EncodeLength.thumbAnd (rs rd : LoReg) : EncodeLength.Statement (.thumbAnd rs rd) := rfl

theorem EncodeLength.thumbEor (rs rd : LoReg) : EncodeLength.Statement (.thumbEor rs rd) := rfl

theorem EncodeLength.thumbLslReg (rs rd : LoReg) : EncodeLength.Statement (.thumbLslReg rs rd) := rfl

theorem EncodeLength.thumbLsrReg (rs rd : LoReg) : EncodeLength.Statement (.thumbLsrReg rs rd) := rfl

theorem EncodeLength.thumbAsrReg (rs rd : LoReg) : EncodeLength.Statement (.thumbAsrReg rs rd) := rfl

theorem EncodeLength.thumbAdc (rs rd : LoReg) : EncodeLength.Statement (.thumbAdc rs rd) := rfl

theorem EncodeLength.thumbSbc (rs rd : LoReg) : EncodeLength.Statement (.thumbSbc rs rd) := rfl

theorem EncodeLength.thumbRor (rs rd : LoReg) : EncodeLength.Statement (.thumbRor rs rd) := rfl

theorem EncodeLength.thumbTst (rs rd : LoReg) : EncodeLength.Statement (.thumbTst rs rd) := rfl

theorem EncodeLength.thumbNeg (rs rd : LoReg) : EncodeLength.Statement (.thumbNeg rs rd) := rfl

theorem EncodeLength.thumbCmp (rs rd : LoReg) : EncodeLength.Statement (.thumbCmp rs rd) := rfl

theorem EncodeLength.thumbCmn (rs rd : LoReg) : EncodeLength.Statement (.thumbCmn rs rd) := rfl

theorem EncodeLength.thumbOrr (rs rd : LoReg) : EncodeLength.Statement (.thumbOrr rs rd) := rfl

theorem EncodeLength.thumbMul (rs rd : LoReg) : EncodeLength.Statement (.thumbMul rs rd) := rfl

theorem EncodeLength.thumbBic (rs rd : LoReg) : EncodeLength.Statement (.thumbBic rs rd) := rfl

theorem EncodeLength.thumbMvn (rs rd : LoReg) : EncodeLength.Statement (.thumbMvn rs rd) := rfl

theorem EncodeLength.thumbMovImm (rd : LoReg) (imm8 : BitVec 8) : EncodeLength.Statement (.thumbMovImm rd imm8) := rfl

theorem EncodeLength.thumbCmpImm (rd : LoReg) (imm8 : BitVec 8) : EncodeLength.Statement (.thumbCmpImm rd imm8) := rfl

theorem EncodeLength.thumbAddImm8 (rd : LoReg) (imm8 : BitVec 8) : EncodeLength.Statement (.thumbAddImm8 rd imm8) := rfl

theorem EncodeLength.thumbSubImm8 (rd : LoReg) (imm8 : BitVec 8) : EncodeLength.Statement (.thumbSubImm8 rd imm8) := rfl

theorem EncodeLength.thumbAddReg (rn rs rd : LoReg) : EncodeLength.Statement (.thumbAddReg rn rs rd) := rfl

theorem EncodeLength.thumbSubReg (rn rs rd : LoReg) : EncodeLength.Statement (.thumbSubReg rn rs rd) := rfl

theorem EncodeLength.thumbAddImm3 (imm3 : BitVec 3) (rs rd : LoReg) : EncodeLength.Statement (.thumbAddImm3 imm3 rs rd) := rfl

theorem EncodeLength.thumbSubImm3 (imm3 : BitVec 3) (rs rd : LoReg) : EncodeLength.Statement (.thumbSubImm3 imm3 rs rd) := rfl

theorem EncodeLength.thumbLslImm (imm5 : BitVec 5) (rs rd : LoReg) : EncodeLength.Statement (.thumbLslImm imm5 rs rd) := rfl

theorem EncodeLength.thumbLsrImm (imm5 : BitVec 5) (rs rd : LoReg) : EncodeLength.Statement (.thumbLsrImm imm5 rs rd) := rfl

theorem EncodeLength.thumbAsrImm (imm5 : BitVec 5) (rs rd : LoReg) : EncodeLength.Statement (.thumbAsrImm imm5 rs rd) := rfl

theorem EncodeLength.thumbNoClassE8 : EncodeLength.Statement (.thumbNoClassE8) := rfl

theorem EncodeLength.thumbNoClassB0 : EncodeLength.Statement (.thumbNoClassB0) := rfl

end Sys2Proof.Laws
end

