-- ==== Sys2Proof/Laws/Run.lean ====
section
/-! SUPPORT. Laws of the two fetches of a step, of the tally it starts from, and of the charge for a transfer. -/

namespace Sys2Proof.Machine

/-! ## The charge for a transfer -/

theorem dmaCost_perUnit (c : Fin 4) (n fixed unit : Nat) (b : Bus) (h : b.params.dmaCost = .perUnit fixed unit) :
    dmaCost c n b = fixed + unit * n := by
  simp only [dmaCost, h]

@[simp] theorem chargeDma_io (c : Fin 4) (n : Nat) (b : Bus) : (chargeDma c n b).io = b.io := rfl

@[simp] theorem chargeDma_mem (c : Fin 4) (n : Nat) (b : Bus) : (chargeDma c n b).mem = b.mem := rfl

@[simp] theorem chargeDma_params (c : Fin 4) (n : Nat) (b : Bus) : (chargeDma c n b).params = b.params := rfl

@[simp] theorem chargeDma_eeprom (c : Fin 4) (n : Nat) (b : Bus) : (chargeDma c n b).eeprom = b.eeprom := rfl

@[simp] theorem chargeDma_dmaCycles (c : Fin 4) (n : Nat) (b : Bus) :
    (chargeDma c n b).dmaCycles = b.dmaCycles + dmaCost c n b := rfl

/-! ## The EEPROM window -/

/-- The EEPROM lies inside the ROM window, whatever the parameter `EEPROM_WINDOW`. -/
theorem regionOf_eepromAddress (p : Params) (a : Word) (h : eepromAddress p a = true) : regionOf a = .rom := by
  have top : 0x08#8 ≤ a.extractLsb' 24 8 ∧ a.extractLsb' 24 8 ≤ 0x0D#8 := by
    unfold eepromAddress at h
    split at h
    · simp only [Bool.and_eq_true, beq_iff_eq] at h
      rw [h.1]; decide
    · simp only [Bool.and_eq_true, decide_eq_true_eq] at h
      exact h.1
  unfold regionOf
  revert top
  generalize a.extractLsb' 24 8 = t
  revert t
  decide

/-- Outside the ROM window no access reaches the EEPROM. -/
theorem eepromWindow_of_not_rom (b : Bus) (a : Word) (isWrite : Bool) (h : regionOf a ≠ .rom) :
    eepromWindow b a isWrite = false := by
  cases hw : eepromWindow b a isWrite with
  | false => rfl
  | true =>
    simp only [eepromWindow, Bool.and_eq_true] at hw
    exact absurd (regionOf_eepromAddress b.params a hw.2) h

/-! ## The fetches -/

@[simp] theorem afterFetch_params (b : Bus) (a : Word) (w : Width) : (afterFetch b a w).params = b.params := by
  unfold afterFetch afterRead
  split <;> split <;> rfl

@[simp] theorem State.fillLatch_params (s : State) : s.fillLatch.bus.params = s.bus.params := by
  unfold State.fillLatch
  split
  · rfl
  · exact afterFetch_params _ _ _

@[simp] theorem State.afterFetches_params (s : State) : s.afterFetches.bus.params = s.bus.params :=
  (afterFetch_params _ _ _).trans s.clearTally.fillLatch_params

@[simp] theorem State.afterFetches_cycles (s : State) : s.afterFetches.cycles = 0 :=
  s.clearTally.fillLatch_cycles

/-! ## The tally a step starts from -/

@[simp] theorem State.fetched_cpu (s : State) : s.fetched.cpu = s.afterFetches.cpu := rfl

@[simp] theorem State.fetched_bus (s : State) : s.fetched.bus = s.afterFetches.bus := rfl

/-- With the default `Cycles` a step's tally starts from 0 and is the sum of R611. -/
theorem State.fetched_cycles_default (s : State) (h : s.bus.params.cycles = .default) : s.fetched.cycles = 0 := by
  simp [State.fetched, State.tally, State.cyclesAbove, h]

/-- With another `Cycles` it starts from what that adds to the default, so no step tallies less (R610). -/
theorem State.fetched_cycles_other (s : State) (h : s.bus.params.cycles = .other) :
    s.fetched.cycles = Config.cyclesAbove s.currentInstr s := by
  simp [State.fetched, State.tally, State.cyclesAbove, h]

end Sys2Proof.Machine
end

