-- ==== Sys2Proof/Tests/Slice0.lean ====
section
/-! SUPPORT. Tests: instructions on worked values (expected results from `95_test_vectors.md` and the rules' examples), decoding of
words written out from the encodings of `30_encoding.md`, devices, and a witness for the hypotheses of every obligation. -/

namespace Sys2Proof.Tests

set_option Elab.async false

open Sys2Proof.Machine

/-! ## Helpers -/

/-- A running machine in IWRAM at 0x03000100, inside the H-draw budget, latch empty (the conventions of `95_test_vectors.md`). -/
def setup (cpsr spsr : Word) (regs : List (PhysReg × Word)) (mem : Memory) : State :=
  { State.reset with
    cpu :=
      { regs := regs.foldl (fun rf p => rf.set p.1 p.2) { Regs.zero with r15 := 0x03000100#32 }
        cpsr := cpsr
        spsr := ⟨spsr, spsr, spsr, spsr, spsr⟩
        latchValid := false
        latchOp := 0
        cur := 0 }
    bus := { State.reset.bus with mem := mem }
    seq := .hDraw }

/-- Words stored at IWRAM addresses. -/
def words (l : List (Nat × Word)) : Memory :=
  l.foldl (fun m p => writeBytes m p.1 .word p.2) []

/-- An ARM instruction at 0x03000100. -/
def setupArm (w : Nat) (cpsr spsr : Word) (regs : List (PhysReg × Word)) (data : List (Nat × Word)) : State :=
  setup cpsr spsr regs (writeBytes (words data) 0x03000100 .word (BitVec.ofNat 32 w))

/-- A Thumb instruction at 0x03000100. -/
def setupThumb (w : Nat) (cpsr spsr : Word) (regs : List (PhysReg × Word)) (data : List (Nat × Word)) : State :=
  setup cpsr spsr regs (writeBytes (words data) 0x03000100 .half (BitVec.ofNat 32 w))

/-- A next state, if the answer is one. -/
def nextState (r : Result) : Option State :=
  match r with
  | .next t => some t
  | .fault _ => none
  | .refused _ => none

/-- What one step leaves, seen through `f`. -/
def after {α : Type} (s : State) (f : State → α) : Option α :=
  (nextState (step s)).map f

/-- The rows of a decode test that do not decode as written. -/
def badArm (l : List (Word × Instr)) : List Word :=
  (l.filter fun p => decodeArm p.1 ≠ p.2).map fun p => p.1

/-- The rows of a decode test that do not decode as written. -/
def badThumb (l : List (BitVec 16 × Instr)) : List (BitVec 16) :=
  (l.filter fun p => decodeThumb p.1 ≠ p.2).map fun p => p.1

/-- Stores of the CPU, one after the other, with r15 in the cartridge. -/
def stores (l : List (Word × Width × Word)) (b : Bus) : Bus :=
  l.foldl (fun b p => busWrite 0x08000000#32 p.1 p.2.1 p.2.2 b) b

/-- Byte stores into the backup window. -/
def backupStores (l : List (Nat × Byte)) (b : Bus) : Bus :=
  l.foldl (fun b p => backupWriteByte p.1 p.2 b) b

/-! ## Instructions (`95_test_vectors.md` 2.3-2.13, 2.21) -/

theorem test_adds_overflow : after (setupArm 0xE0910002 0x0000001F#32 0#32 [(.r1, 0x7FFFFFFF#32), (.r2, 0x00000001#32)] [])
    (fun t => (t.cpu.regs.r0, t.cpu.cpsr, t.cycleCounter)) =
    some (0x80000000#32, 0x9000001F#32, 1) := by
  decide +kernel

theorem test_movs_shift_carry : after (setupArm 0xE1B00081 0x0000001F#32 0#32 [(.r1, 0x80000001#32)] [])
    (fun t => (t.cpu.regs.r0, t.cpu.cpsr, t.cycleCounter)) =
    some (0x00000002#32, 0x2000001F#32, 1) := by
  decide +kernel

theorem test_ands_rotated_immediate_carry : after (setupArm 0xE21104FF 0x0000001F#32 0#32 [(.r1, 0x12345678#32)] [])
    (fun t => (t.cpu.regs.r0, t.cpu.cpsr)) =
    some (0x12000000#32, 0x2000001F#32) := by
  decide +kernel

theorem test_add_pc : after (setupArm 0xE28F0000 0x0000001F#32 0#32 [] [])
    (fun t => (t.cpu.regs.r0)) =
    some (0x03000108#32) := by
  decide +kernel

theorem test_mov_pc_register_shift : after (setupArm 0xE1A0011F 0x0000001F#32 0#32 [] [])
    (fun t => (t.cpu.regs.r0, t.cycleCounter)) =
    some (0x0300010C#32, 2) := by
  decide +kernel

theorem test_cmp_equal : after (setupArm 0xE1510002 0x0000001F#32 0#32 [(.r1, 0x00000005#32), (.r2, 0x00000005#32)] [])
    (fun t => (t.cpu.cpsr, t.cpu.regs.r0)) =
    some (0x6000001F#32, 0x00000000#32) := by
  decide +kernel

theorem test_cmp_less : after (setupArm 0xE1510002 0x0000001F#32 0#32 [(.r1, 0x00000000#32), (.r2, 0x00000001#32)] [])
    (fun t => (t.cpu.cpsr)) =
    some (0x8000001F#32) := by
  decide +kernel

theorem test_adcs_carry : after (setupArm 0xE0B00001 0x2000001F#32 0#32 [(.r0, 0xFFFFFFFF#32)] [])
    (fun t => (t.cpu.regs.r0, t.cpu.cpsr)) =
    some (0x00000000#32, 0x6000001F#32) := by
  decide +kernel

theorem test_sbcs_borrow : after (setupArm 0xE0D00001 0x0000001F#32 0#32 [(.r0, 0x00000005#32), (.r1, 0x00000005#32)] [])
    (fun t => (t.cpu.regs.r0, t.cpu.cpsr)) =
    some (0xFFFFFFFF#32, 0x8000001F#32) := by
  decide +kernel

theorem test_rsbs_borrow : after (setupArm 0xE2710000 0x0000001F#32 0#32 [(.r1, 0x00000001#32)] [])
    (fun t => (t.cpu.regs.r0, t.cpu.cpsr)) =
    some (0xFFFFFFFF#32, 0x8000001F#32) := by
  decide +kernel

theorem test_rscs : after (setupArm 0xE0F10002 0x0000001F#32 0#32 [(.r1, 0x00000001#32), (.r2, 0x00000003#32)] [])
    (fun t => (t.cpu.regs.r0, t.cpu.cpsr)) =
    some (0x00000001#32, 0x2000001F#32) := by
  decide +kernel

theorem test_subs_overflow : after (setupArm 0xE0510002 0x0000001F#32 0#32 [(.r1, 0x80000000#32), (.r2, 0x00000001#32)] [])
    (fun t => (t.cpu.regs.r0, t.cpu.cpsr)) =
    some (0x7FFFFFFF#32, 0x3000001F#32) := by
  decide +kernel

theorem test_cmn_carry : after (setupArm 0xE1710002 0x0000001F#32 0#32 [(.r1, 0xFFFFFFFF#32), (.r2, 0x00000001#32)] [])
    (fun t => (t.cpu.cpsr)) =
    some (0x6000001F#32) := by
  decide +kernel

theorem test_tst_keeps_carry : after (setupArm 0xE1120003 0x3000001F#32 0#32 [(.r2, 0x000000F0#32), (.r3, 0x0000000F#32)] [])
    (fun t => (t.cpu.cpsr)) =
    some (0x7000001F#32) := by
  decide +kernel

theorem test_teq : after (setupArm 0xE1320003 0x0000001F#32 0#32 [(.r2, 0x80000000#32)] [])
    (fun t => (t.cpu.cpsr)) =
    some (0x8000001F#32) := by
  decide +kernel

theorem test_mvn : after (setupArm 0xE1E00001 0x0000001F#32 0#32 [] [])
    (fun t => (t.cpu.regs.r0, t.cpu.cpsr)) =
    some (0xFFFFFFFF#32, 0x0000001F#32) := by
  decide +kernel

theorem test_bics : after (setupArm 0xE1D00001 0x0000001F#32 0#32 [(.r0, 0x000000FF#32), (.r1, 0x0000000F#32)] [])
    (fun t => (t.cpu.regs.r0, t.cpu.cpsr)) =
    some (0x000000F0#32, 0x0000001F#32) := by
  decide +kernel

theorem test_eor : after (setupArm 0xE0210002 0x0000001F#32 0#32 [(.r1, 0xFFFF0000#32), (.r2, 0xFF00FF00#32)] [])
    (fun t => (t.cpu.regs.r0)) =
    some (0x00FFFF00#32) := by
  decide +kernel

theorem test_orr : after (setupArm 0xE1810002 0x0000001F#32 0#32 [(.r1, 0x000000F0#32), (.r2, 0x0000000F#32)] [])
    (fun t => (t.cpu.regs.r0)) =
    some (0x000000FF#32) := by
  decide +kernel

theorem test_mov_pc : after (setupArm 0xE1A0F001 0x0000001F#32 0#32 [(.r1, 0x03000203#32)] [])
    (fun t => (t.cpu.regs.r15, t.cpu.latchValid, t.cycleCounter, t.cpu.cpsr)) =
    some (0x03000200#32, false, 3, 0x0000001F#32) := by
  decide +kernel

theorem test_subs_pc_lr_returns : after (setupArm 0xE25EF004 0x00000092#32 0x6000003F#32 [(.r14irq, 0x08000044#32)] [])
    (fun t => (t.cpu.cpsr, t.cpu.regs.r15, t.cpu.latchValid, t.cycleCounter)) =
    some (0x6000003F#32, 0x08000040#32, false, 3) := by
  decide +kernel

theorem test_moveq_fails : after (setupArm 0x01A00001 0x0000001F#32 0#32 [(.r1, 0x00000009#32)] [])
    (fun t => (t.cpu.regs.r0, t.cpu.cpsr, t.cycleCounter, t.cpu.regs.r15, t.cpu.latchValid)) =
    some (0x00000000#32, 0x0000001F#32, 1, 0x03000108#32, true) := by
  decide +kernel

theorem test_mul : after (setupArm 0xE0000291 0x0000001F#32 0#32 [(.r1, 0x00000007#32), (.r2, 0x00000006#32)] [])
    (fun t => (t.cpu.regs.r0, t.cycleCounter)) =
    some (0x0000002A#32, 2) := by
  decide +kernel

theorem test_muls_keeps_cv : after (setupArm 0xE0100291 0x3000001F#32 0#32 [(.r1, 0xFFFFFFFF#32), (.r2, 0x00000002#32)] [])
    (fun t => (t.cpu.regs.r0, t.cpu.cpsr)) =
    some (0xFFFFFFFE#32, 0xB000001F#32) := by
  decide +kernel

theorem test_mla : after (setupArm 0xE0203291 0x0000001F#32 0#32 [(.r1, 0x00010000#32), (.r2, 0x00010000#32), (.r3, 0x00000005#32)] [])
    (fun t => (t.cpu.regs.r0, t.cycleCounter)) =
    some (0x00000005#32, 5) := by
  decide +kernel

theorem test_umull : after (setupArm 0xE0810392 0x0000001F#32 0#32 [(.r2, 0xFFFFFFFF#32), (.r3, 0xFFFFFFFF#32)] [])
    (fun t => (t.cpu.regs.r1, t.cpu.regs.r0, t.cycleCounter)) =
    some (0xFFFFFFFE#32, 0x00000001#32, 3) := by
  decide +kernel

theorem test_smulls : after (setupArm 0xE0D10392 0x0000001F#32 0#32 [(.r2, 0x80000000#32), (.r3, 0x00000002#32)] [])
    (fun t => (t.cpu.regs.r1, t.cpu.regs.r0, t.cpu.cpsr)) =
    some (0xFFFFFFFF#32, 0x00000000#32, 0x8000001F#32) := by
  decide +kernel

theorem test_umlal : after (setupArm 0xE0A10392 0x0000001F#32 0#32 [(.r0, 0xFFFFFFFF#32), (.r2, 0x00000001#32), (.r3, 0x00000001#32)] [])
    (fun t => (t.cpu.regs.r1, t.cpu.regs.r0, t.cycleCounter)) =
    some (0x00000001#32, 0x00000000#32, 4) := by
  decide +kernel

theorem test_smlal : after (setupArm 0xE0E10392 0x0000001F#32 0#32 [(.r0, 0x00000001#32), (.r2, 0xFFFFFFFF#32), (.r3, 0x00000001#32)] [])
    (fun t => (t.cpu.regs.r1, t.cpu.regs.r0, t.cycleCounter)) =
    some (0x00000000#32, 0x00000000#32, 4) := by
  decide +kernel

theorem test_mrs_cpsr : after (setupArm 0xE10F0000 0x6000001F#32 0#32 [] [])
    (fun t => (t.cpu.regs.r0, t.cycleCounter)) =
    some (0x6000001F#32, 1) := by
  decide +kernel

theorem test_mrs_spsr_sys_fatal : after (setupArm 0xE14F0000 0x0000001F#32 0#32 [] [])
    (fun t => (t.fatal, t.cycleCounter)) =
    some (some (.executeError 0xE14F0000#32 false), 0) := by
  decide +kernel

theorem test_msr_flags : after (setupArm 0xE328F20F 0x0000001F#32 0#32 [] [])
    (fun t => (t.cpu.cpsr)) =
    some (0xF000001F#32) := by
  decide +kernel

theorem test_msr_user_control : after (setupArm 0xE321F0D3 0x00000010#32 0#32 [] [])
    (fun t => (t.cpu.cpsr)) =
    some (0x00000010#32) := by
  decide +kernel

theorem test_msr_keeps_t : after (setupArm 0xE121F000 0x0000001F#32 0#32 [(.r0, 0x0000003F#32)] [])
    (fun t => (t.cpu.cpsr)) =
    some (0x0000001F#32) := by
  decide +kernel

theorem test_msr_spsr_bytes : after (setupArm 0xE169F000 0x00000012#32 0x0F0F0F0F#32 [(.r0, 0xF00000FF#32)] [])
    (fun t => (t.cpu.spsr.irq)) =
    some (0xF00F0FFF#32) := by
  decide +kernel

theorem test_ldr_unaligned : after (setupArm 0xE5910001 0x0000001F#32 0#32 [(.r1, 0x03000000#32)] [(0x03000000, 0xDEADBEEF#32), (0x03000004, 0x8001AABB#32)])
    (fun t => (t.cpu.regs.r0, t.cycleCounter)) =
    some (0xEFDEADBE#32, 3) := by
  decide +kernel

theorem test_ldr_base_is_destination : after (setupArm 0xE5B11004 0x0000001F#32 0#32 [(.r1, 0x03000000#32)] [(0x03000000, 0xDEADBEEF#32), (0x03000004, 0x8001AABB#32)])
    (fun t => (t.cpu.regs.r1)) =
    some (0x8001AABB#32) := by
  decide +kernel

theorem test_ldrb : after (setupArm 0xE5D10003 0x0000001F#32 0#32 [(.r1, 0x03000000#32)] [(0x03000000, 0xDEADBEEF#32), (0x03000004, 0x8001AABB#32)])
    (fun t => (t.cpu.regs.r0)) =
    some (0x000000DE#32) := by
  decide +kernel

theorem test_str_writeback : after (setupArm 0xE5210004 0x0000001F#32 0#32 [(.r0, 0x11223344#32), (.r1, 0x03000008#32)] [(0x03000000, 0xDEADBEEF#32), (0x03000004, 0x8001AABB#32)])
    (fun t => (readBytes t.bus.mem 0x03000004 .word, t.cpu.regs.r1, t.cycleCounter)) =
    some (0x11223344#32, 0x03000004#32, 2) := by
  decide +kernel

theorem test_strb : after (setupArm 0xE5C10001 0x0000001F#32 0#32 [(.r0, 0x11223344#32), (.r1, 0x03000000#32)] [(0x03000000, 0xDEADBEEF#32), (0x03000004, 0x8001AABB#32)])
    (fun t => (readBytes t.bus.mem 0x03000000 .word)) =
    some (0xDEAD44EF#32) := by
  decide +kernel

theorem test_str_pc : after (setupArm 0xE581F000 0x0000001F#32 0#32 [(.r1, 0x03000000#32)] [(0x03000000, 0xDEADBEEF#32), (0x03000004, 0x8001AABB#32)])
    (fun t => (readBytes t.bus.mem 0x03000000 .word)) =
    some (0x0300010C#32) := by
  decide +kernel

theorem test_ldrh_odd : after (setupArm 0xE1D100B5 0x0000001F#32 0#32 [(.r1, 0x03000000#32)] [(0x03000000, 0xDEADBEEF#32), (0x03000004, 0x8001AABB#32)])
    (fun t => (t.cpu.regs.r0)) =
    some (0xBB0000AA#32) := by
  decide +kernel

theorem test_ldrsb : after (setupArm 0xE1D100D7 0x0000001F#32 0#32 [(.r1, 0x03000000#32)] [(0x03000000, 0xDEADBEEF#32), (0x03000004, 0x8001AABB#32)])
    (fun t => (t.cpu.regs.r0)) =
    some (0xFFFFFF80#32) := by
  decide +kernel

theorem test_ldrsh_even : after (setupArm 0xE1D100F6 0x0000001F#32 0#32 [(.r1, 0x03000000#32)] [(0x03000000, 0xDEADBEEF#32), (0x03000004, 0x8001AABB#32)])
    (fun t => (t.cpu.regs.r0)) =
    some (0xFFFF8001#32) := by
  decide +kernel

theorem test_ldrsh_odd : after (setupArm 0xE1D100F5 0x0000001F#32 0#32 [(.r1, 0x03000000#32)] [(0x03000000, 0xDEADBEEF#32), (0x03000004, 0x8001AABB#32)])
    (fun t => (t.cpu.regs.r0)) =
    some (0xFFFFFFAA#32) := by
  decide +kernel

theorem test_strh : after (setupArm 0xE1C100B1 0x0000001F#32 0#32 [(.r0, 0x1234CAFE#32), (.r1, 0x03000000#32)] [(0x03000000, 0xDEADBEEF#32), (0x03000004, 0x8001AABB#32)])
    (fun t => (readBytes t.bus.mem 0x03000000 .word, t.cycleCounter)) =
    some (0xDEADCAFE#32, 2) := by
  decide +kernel

theorem test_ldrd_position : after (setupArm 0xE1C100D0 0x0000001F#32 0#32 [] [])
    (fun t => (t.fatal)) =
    some (some (.unimplemented 0xE1C100D0#32)) := by
  decide +kernel

theorem test_strd_position : after (setupArm 0xE1C100F0 0x0000001F#32 0#32 [] [])
    (fun t => (t.fatal)) =
    some (some (.unimplemented 0xE1C100F0#32)) := by
  decide +kernel

theorem test_swp_fatal : after (setupArm 0xE1010092 0x0000001F#32 0#32 [] [])
    (fun t => (t.fatal)) =
    some (some (.unimplemented 0xE1010092#32)) := by
  decide +kernel

theorem test_swpb_fatal : after (setupArm 0xE1410092 0x0000001F#32 0#32 [] [])
    (fun t => (t.fatal)) =
    some (some (.unimplemented 0xE1410092#32)) := by
  decide +kernel

theorem test_ldmia : after (setupArm 0xE8B00006 0x0000001F#32 0#32 [(.r0, 0x03000000#32)] [(0x03000000, 0x00000100#32), (0x03000004, 0x00000101#32), (0x03000008, 0x00000102#32), (0x0300000C, 0x00000103#32), (0x03000010, 0x00000104#32), (0x03000014, 0x00000105#32), (0x03000018, 0x00000106#32), (0x0300001C, 0x00000107#32)])
    (fun t => (t.cpu.regs.r1, t.cpu.regs.r2, t.cpu.regs.r0, t.cycleCounter)) =
    some (0x00000100#32, 0x00000101#32, 0x03000008#32, 4) := by
  decide +kernel

theorem test_ldm_pc : after (setupArm 0xE8B08001 0x0000001F#32 0#32 [(.r0, 0x03000000#32)] [(0x03000000, 0x00000111#32), (0x03000004, 0x08000102#32)])
    (fun t => (t.cpu.regs.r0, t.cpu.regs.r15, t.cycleCounter)) =
    some (0x00000111#32, 0x08000100#32, 6) := by
  decide +kernel

theorem test_stmdb : after (setupArm 0xE92D4001 0x0000001F#32 0#32 [(.r0, 0x0000AAAA#32), (.r13usr, 0x03007F00#32), (.r14usr, 0x0000BBBB#32)] [])
    (fun t => (readBytes t.bus.mem 0x03007EF8 .word, readBytes t.bus.mem 0x03007EFC .word, t.cpu.regs.r13usr, t.cycleCounter)) =
    some (0x0000AAAA#32, 0x0000BBBB#32, 0x03007EF8#32, 3) := by
  decide +kernel

theorem test_stm_base_not_lowest : after (setupArm 0xE8A10003 0x0000001F#32 0#32 [(.r0, 0x00000066#32), (.r1, 0x03000040#32)] [])
    (fun t => (readBytes t.bus.mem 0x03000040 .word, readBytes t.bus.mem 0x03000044 .word, t.cpu.regs.r1)) =
    some (0x00000066#32, 0x03000048#32, 0x03000048#32) := by
  decide +kernel

theorem test_b_self : after (setupArm 0xEAFFFFFE 0x0000001F#32 0#32 [] [])
    (fun t => (t.cpu.regs.r15, t.cpu.latchValid, t.cycleCounter)) =
    some (0x03000100#32, false, 3) := by
  decide +kernel

theorem test_bl : after (setupArm 0xEB00003E 0x0000001F#32 0#32 [] [])
    (fun t => (t.cpu.regs.r14usr, t.cpu.regs.r15, t.cycleCounter)) =
    some (0x03000104#32, 0x03000200#32, 3) := by
  decide +kernel

theorem test_bx_thumb : after (setupArm 0xE12FFF10 0x0000001F#32 0#32 [(.r0, 0x08000011#32)] [])
    (fun t => (t.cpu.cpsr, t.cpu.regs.r15, t.cycleCounter)) =
    some (0x0000003F#32, 0x08000010#32, 3) := by
  decide +kernel

theorem test_swi : after (setupArm 0xEF123456 0x6000001F#32 0#32 [] [])
    (fun t => (t.cpu.cpsr, t.cpu.regs.r14svc, t.cpu.spsr.svc, t.cpu.regs.r15, t.cpu.latchValid, t.cycleCounter)) =
    some (0x60000093#32, 0x03000104#32, 0x6000001F#32, 0x00000008#32, false, 3) := by
  decide +kernel

theorem test_undefined : after (setupArm 0xE7F000F0 0x00000010#32 0#32 [] [])
    (fun t => (t.cpu.cpsr, t.cpu.regs.r14und, t.cpu.spsr.und, t.cpu.regs.r15, t.cycleCounter)) =
    some (0x0000009B#32, 0x03000104#32, 0x00000010#32, 0x00000004#32, 3) := by
  decide +kernel

theorem test_coprocessor_operation : after (setupArm 0xEE000000 0x0000001F#32 0#32 [] [])
    (fun t => (t.fatal)) =
    some (some (.decodeError 0xEE000000#32 false)) := by
  decide +kernel

theorem test_coprocessor_transfer : after (setupArm 0xEC100000 0x0000001F#32 0#32 [] [])
    (fun t => (t.fatal)) =
    some (some (.decodeError 0xEC100000#32 false)) := by
  decide +kernel

theorem test_thumb_lsl_imm : after (setupThumb 0x0048 0x0000003F#32 0#32 [(.r1, 0x80000001#32)] [])
    (fun t => (t.cpu.regs.r0, t.cpu.cpsr)) =
    some (0x00000002#32, 0x2000003F#32) := by
  decide +kernel

theorem test_thumb_lsr_imm_32 : after (setupThumb 0x0808 0x0000003F#32 0#32 [(.r1, 0x80000001#32)] [])
    (fun t => (t.cpu.regs.r0, t.cpu.cpsr)) =
    some (0x00000000#32, 0x6000003F#32) := by
  decide +kernel

theorem test_thumb_asr_imm_32 : after (setupThumb 0x1008 0x0000003F#32 0#32 [(.r1, 0x80000001#32)] [])
    (fun t => (t.cpu.regs.r0, t.cpu.cpsr)) =
    some (0xFFFFFFFF#32, 0xA000003F#32) := by
  decide +kernel

theorem test_thumb_add_reg : after (setupThumb 0x1888 0x0000003F#32 0#32 [(.r1, 0x7FFFFFFF#32), (.r2, 0x00000001#32)] [])
    (fun t => (t.cpu.regs.r0, t.cpu.cpsr)) =
    some (0x80000000#32, 0x9000003F#32) := by
  decide +kernel

theorem test_thumb_sub_reg : after (setupThumb 0x1A88 0x0000003F#32 0#32 [(.r1, 0x00000005#32), (.r2, 0x00000005#32)] [])
    (fun t => (t.cpu.regs.r0, t.cpu.cpsr)) =
    some (0x00000000#32, 0x6000003F#32) := by
  decide +kernel

theorem test_thumb_add_imm3 : after (setupThumb 0x1DC8 0x0000003F#32 0#32 [(.r1, 0xFFFFFFFF#32)] [])
    (fun t => (t.cpu.regs.r0, t.cpu.cpsr)) =
    some (0x00000006#32, 0x2000003F#32) := by
  decide +kernel

theorem test_thumb_sub_imm3 : after (setupThumb 0x1E48 0x0000003F#32 0#32 [] [])
    (fun t => (t.cpu.regs.r0, t.cpu.cpsr)) =
    some (0xFFFFFFFF#32, 0x8000003F#32) := by
  decide +kernel

theorem test_thumb_mov_imm : after (setupThumb 0x2000 0xB000003F#32 0#32 [] [])
    (fun t => (t.cpu.regs.r0, t.cpu.cpsr)) =
    some (0x00000000#32, 0x7000003F#32) := by
  decide +kernel

theorem test_thumb_cmp_imm : after (setupThumb 0x2806 0x0000003F#32 0#32 [(.r0, 0x00000005#32)] [])
    (fun t => (t.cpu.cpsr, t.cpu.regs.r0)) =
    some (0x8000003F#32, 0x00000005#32) := by
  decide +kernel

theorem test_thumb_add_imm8 : after (setupThumb 0x30FF 0x0000003F#32 0#32 [(.r0, 0xFFFFFF01#32)] [])
    (fun t => (t.cpu.regs.r0, t.cpu.cpsr)) =
    some (0x00000000#32, 0x6000003F#32) := by
  decide +kernel

theorem test_thumb_sub_imm8 : after (setupThumb 0x3801 0x0000003F#32 0#32 [(.r0, 0x80000000#32)] [])
    (fun t => (t.cpu.regs.r0, t.cpu.cpsr)) =
    some (0x7FFFFFFF#32, 0x3000003F#32) := by
  decide +kernel

theorem test_thumb_and : after (setupThumb 0x4008 0x3000003F#32 0#32 [(.r0, 0x000000F0#32), (.r1, 0x0000003C#32)] [])
    (fun t => (t.cpu.regs.r0, t.cpu.cpsr)) =
    some (0x00000030#32, 0x3000003F#32) := by
  decide +kernel

theorem test_thumb_eor : after (setupThumb 0x4048 0x0000003F#32 0#32 [(.r0, 0x000000FF#32), (.r1, 0x000000FF#32)] [])
    (fun t => (t.cpu.regs.r0, t.cpu.cpsr)) =
    some (0x00000000#32, 0x4000003F#32) := by
  decide +kernel

theorem test_thumb_lsl_reg_32 : after (setupThumb 0x4088 0x0000003F#32 0#32 [(.r0, 0x00000001#32), (.r1, 0x00000020#32)] [])
    (fun t => (t.cpu.regs.r0, t.cpu.cpsr, t.cycleCounter)) =
    some (0x00000000#32, 0x6000003F#32, 2) := by
  decide +kernel

theorem test_thumb_lsr_reg_33 : after (setupThumb 0x40C8 0x2000003F#32 0#32 [(.r0, 0x80000000#32), (.r1, 0x00000021#32)] [])
    (fun t => (t.cpu.regs.r0, t.cpu.cpsr)) =
    some (0x00000000#32, 0x4000003F#32) := by
  decide +kernel

theorem test_thumb_asr_reg_40 : after (setupThumb 0x4108 0x0000003F#32 0#32 [(.r0, 0x80000000#32), (.r1, 0x00000028#32)] [])
    (fun t => (t.cpu.regs.r0, t.cpu.cpsr)) =
    some (0xFFFFFFFF#32, 0xA000003F#32) := by
  decide +kernel

theorem test_thumb_adc : after (setupThumb 0x4148 0x2000003F#32 0#32 [(.r0, 0xFFFFFFFF#32)] [])
    (fun t => (t.cpu.regs.r0, t.cpu.cpsr)) =
    some (0x00000000#32, 0x6000003F#32) := by
  decide +kernel

theorem test_thumb_sbc : after (setupThumb 0x4188 0x0000003F#32 0#32 [(.r0, 0x00000005#32), (.r1, 0x00000005#32)] [])
    (fun t => (t.cpu.regs.r0, t.cpu.cpsr)) =
    some (0xFFFFFFFF#32, 0x8000003F#32) := by
  decide +kernel

theorem test_thumb_ror_36 : after (setupThumb 0x41C8 0x0000003F#32 0#32 [(.r0, 0x12345678#32), (.r1, 0x00000024#32)] [])
    (fun t => (t.cpu.regs.r0, t.cpu.cpsr, t.cycleCounter)) =
    some (0x81234567#32, 0xA000003F#32, 2) := by
  decide +kernel

theorem test_thumb_tst : after (setupThumb 0x4208 0x0000003F#32 0#32 [(.r0, 0x80000000#32), (.r1, 0x80000000#32)] [])
    (fun t => (t.cpu.regs.r0, t.cpu.cpsr)) =
    some (0x80000000#32, 0x8000003F#32) := by
  decide +kernel

theorem test_thumb_neg_min : after (setupThumb 0x4248 0x0000003F#32 0#32 [(.r1, 0x80000000#32)] [])
    (fun t => (t.cpu.regs.r0, t.cpu.cpsr)) =
    some (0x80000000#32, 0x9000003F#32) := by
  decide +kernel

theorem test_thumb_cmp : after (setupThumb 0x4288 0x0000003F#32 0#32 [(.r1, 0x00000001#32)] [])
    (fun t => (t.cpu.cpsr)) =
    some (0x8000003F#32) := by
  decide +kernel

theorem test_thumb_cmn : after (setupThumb 0x42C8 0x0000003F#32 0#32 [(.r0, 0xFFFFFFFF#32), (.r1, 0x00000001#32)] [])
    (fun t => (t.cpu.cpsr)) =
    some (0x6000003F#32) := by
  decide +kernel

theorem test_thumb_orr : after (setupThumb 0x4308 0x0000003F#32 0#32 [(.r0, 0x000000F0#32), (.r1, 0x0000000F#32)] [])
    (fun t => (t.cpu.regs.r0, t.cpu.cpsr)) =
    some (0x000000FF#32, 0x0000003F#32) := by
  decide +kernel

theorem test_thumb_mul : after (setupThumb 0x4348 0x3000003F#32 0#32 [(.r0, 0x00012345#32), (.r1, 0x00000003#32)] [])
    (fun t => (t.cpu.regs.r0, t.cpu.cpsr, t.cycleCounter)) =
    some (0x000369CF#32, 0x3000003F#32, 4) := by
  decide +kernel

theorem test_thumb_bic : after (setupThumb 0x4388 0x0000003F#32 0#32 [(.r0, 0x000000FF#32), (.r1, 0x0000000F#32)] [])
    (fun t => (t.cpu.regs.r0)) =
    some (0x000000F0#32) := by
  decide +kernel

theorem test_thumb_mvn : after (setupThumb 0x43C8 0x0000003F#32 0#32 [] [])
    (fun t => (t.cpu.regs.r0, t.cpu.cpsr)) =
    some (0xFFFFFFFF#32, 0x8000003F#32) := by
  decide +kernel

theorem test_thumb_add_hi : after (setupThumb 0x4448 0xF000003F#32 0#32 [(.r0, 0x00000001#32), (.r9usr, 0x00000010#32)] [])
    (fun t => (t.cpu.regs.r0, t.cpu.cpsr)) =
    some (0x00000011#32, 0xF000003F#32) := by
  decide +kernel

theorem test_thumb_cmp_hi : after (setupThumb 0x4541 0x0000003F#32 0#32 [(.r1, 0x00000005#32), (.r8usr, 0x00000005#32)] [])
    (fun t => (t.cpu.cpsr)) =
    some (0x6000003F#32) := by
  decide +kernel

theorem test_thumb_mov_hi : after (setupThumb 0x4680 0x0000003F#32 0#32 [(.r0, 0x00001234#32)] [])
    (fun t => (t.cpu.regs.r8usr, t.cpu.cpsr)) =
    some (0x00001234#32, 0x0000003F#32) := by
  decide +kernel

theorem test_thumb_bx_arm : after (setupThumb 0x4700 0x0000003F#32 0#32 [(.r0, 0x08000100#32)] [])
    (fun t => (t.cpu.cpsr, t.cpu.regs.r15, t.cycleCounter)) =
    some (0x0000001F#32, 0x08000100#32, 3) := by
  decide +kernel

theorem test_thumb_ldr_pc : after (setupThumb 0x4801 0x0000003F#32 0#32 [] [(0x03000108, 0x0BADF00D#32)])
    (fun t => (t.cpu.regs.r0, t.cycleCounter)) =
    some (0x0BADF00D#32, 3) := by
  decide +kernel

theorem test_thumb_str_reg : after (setupThumb 0x5088 0x0000003F#32 0#32 [(.r0, 0x000055AA#32), (.r1, 0x03000000#32), (.r2, 0x00000004#32)] [(0x03000000, 0xDEADBEEF#32), (0x03000004, 0x8001AABB#32)])
    (fun t => (readBytes t.bus.mem 0x03000004 .word, t.cycleCounter)) =
    some (0x000055AA#32, 2) := by
  decide +kernel

theorem test_thumb_strb_reg : after (setupThumb 0x5488 0x0000003F#32 0#32 [(.r0, 0x000055A1#32), (.r1, 0x03000000#32), (.r2, 0x00000005#32)] [(0x03000000, 0xDEADBEEF#32), (0x03000004, 0x8001AABB#32)])
    (fun t => (readBytes t.bus.mem 0x03000004 .word)) =
    some (0x8001A1BB#32) := by
  decide +kernel

theorem test_thumb_ldr_reg : after (setupThumb 0x5888 0x0000003F#32 0#32 [(.r1, 0x03000000#32), (.r2, 0x00000001#32)] [(0x03000000, 0xDEADBEEF#32), (0x03000004, 0x8001AABB#32)])
    (fun t => (t.cpu.regs.r0)) =
    some (0xEFDEADBE#32) := by
  decide +kernel

theorem test_thumb_ldrb_reg : after (setupThumb 0x5C88 0x0000003F#32 0#32 [(.r1, 0x03000000#32), (.r2, 0x00000007#32)] [(0x03000000, 0xDEADBEEF#32), (0x03000004, 0x8001AABB#32)])
    (fun t => (t.cpu.regs.r0)) =
    some (0x00000080#32) := by
  decide +kernel

theorem test_thumb_strh_reg : after (setupThumb 0x5288 0x0000003F#32 0#32 [(.r0, 0x1234CAFE#32), (.r1, 0x03000000#32), (.r2, 0x00000003#32)] [(0x03000000, 0xDEADBEEF#32), (0x03000004, 0x8001AABB#32)])
    (fun t => (readBytes t.bus.mem 0x03000000 .word)) =
    some (0xCAFEBEEF#32) := by
  decide +kernel

theorem test_thumb_ldrh_reg : after (setupThumb 0x5A88 0x0000003F#32 0#32 [(.r1, 0x03000000#32), (.r2, 0x00000005#32)] [(0x03000000, 0xDEADBEEF#32), (0x03000004, 0x8001AABB#32)])
    (fun t => (t.cpu.regs.r0)) =
    some (0xBB0000AA#32) := by
  decide +kernel

theorem test_thumb_ldsb : after (setupThumb 0x5688 0x0000003F#32 0#32 [(.r1, 0x03000000#32), (.r2, 0x00000007#32)] [(0x03000000, 0xDEADBEEF#32), (0x03000004, 0x8001AABB#32)])
    (fun t => (t.cpu.regs.r0)) =
    some (0xFFFFFF80#32) := by
  decide +kernel

theorem test_thumb_ldsh_odd : after (setupThumb 0x5E88 0x0000003F#32 0#32 [(.r1, 0x03000000#32), (.r2, 0x00000005#32)] [(0x03000000, 0xDEADBEEF#32), (0x03000004, 0x8001AABB#32)])
    (fun t => (t.cpu.regs.r0)) =
    some (0xFFFFFFAA#32) := by
  decide +kernel

theorem test_thumb_str_imm : after (setupThumb 0x6048 0x0000003F#32 0#32 [(.r0, 0x000055AA#32), (.r1, 0x03000000#32)] [(0x03000000, 0xDEADBEEF#32), (0x03000004, 0x8001AABB#32)])
    (fun t => (readBytes t.bus.mem 0x03000004 .word)) =
    some (0x000055AA#32) := by
  decide +kernel

theorem test_thumb_ldr_imm : after (setupThumb 0x6848 0x0000003F#32 0#32 [(.r1, 0x03000000#32)] [(0x03000000, 0xDEADBEEF#32), (0x03000004, 0x8001AABB#32)])
    (fun t => (t.cpu.regs.r0)) =
    some (0x8001AABB#32) := by
  decide +kernel

theorem test_thumb_strb_imm : after (setupThumb 0x7048 0x0000003F#32 0#32 [(.r0, 0x000055AA#32), (.r1, 0x03000000#32)] [(0x03000000, 0xDEADBEEF#32), (0x03000004, 0x8001AABB#32)])
    (fun t => (readBytes t.bus.mem 0x03000000 .word)) =
    some (0xDEADAAEF#32) := by
  decide +kernel

theorem test_thumb_ldrb_imm : after (setupThumb 0x78C8 0x0000003F#32 0#32 [(.r1, 0x03000000#32)] [(0x03000000, 0xDEADBEEF#32), (0x03000004, 0x8001AABB#32)])
    (fun t => (t.cpu.regs.r0)) =
    some (0x000000DE#32) := by
  decide +kernel

theorem test_thumb_strh_imm : after (setupThumb 0x8088 0x0000003F#32 0#32 [(.r0, 0x000055AA#32), (.r1, 0x03000000#32)] [(0x03000000, 0xDEADBEEF#32), (0x03000004, 0x8001AABB#32)])
    (fun t => (readBytes t.bus.mem 0x03000004 .word)) =
    some (0x800155AA#32) := by
  decide +kernel

theorem test_thumb_ldrh_imm : after (setupThumb 0x8888 0x0000003F#32 0#32 [(.r1, 0x03000000#32)] [(0x03000000, 0xDEADBEEF#32), (0x03000004, 0x8001AABB#32)])
    (fun t => (t.cpu.regs.r0)) =
    some (0x0000AABB#32) := by
  decide +kernel

theorem test_thumb_str_sp : after (setupThumb 0x9001 0x0000003F#32 0#32 [(.r0, 0x000055AA#32), (.r13usr, 0x03000000#32)] [(0x03000000, 0xDEADBEEF#32), (0x03000004, 0x8001AABB#32)])
    (fun t => (readBytes t.bus.mem 0x03000004 .word)) =
    some (0x000055AA#32) := by
  decide +kernel

theorem test_thumb_ldr_sp : after (setupThumb 0x9801 0x0000003F#32 0#32 [(.r13usr, 0x03000000#32)] [(0x03000000, 0xDEADBEEF#32), (0x03000004, 0x8001AABB#32)])
    (fun t => (t.cpu.regs.r0)) =
    some (0x8001AABB#32) := by
  decide +kernel

theorem test_thumb_add_rd_pc : after (setupThumb 0xA001 0x0000003F#32 0#32 [] [])
    (fun t => (t.cpu.regs.r0)) =
    some (0x03000108#32) := by
  decide +kernel

theorem test_thumb_add_rd_sp : after (setupThumb 0xA801 0x0000003F#32 0#32 [(.r13usr, 0x03007F00#32)] [])
    (fun t => (t.cpu.regs.r0)) =
    some (0x03007F04#32) := by
  decide +kernel

theorem test_thumb_add_sp : after (setupThumb 0xB001 0x0000003F#32 0#32 [(.r13usr, 0x03007F00#32)] [])
    (fun t => (t.cpu.regs.r13usr, t.cpu.cpsr)) =
    some (0x03007F04#32, 0x0000003F#32) := by
  decide +kernel

theorem test_thumb_sub_sp : after (setupThumb 0xB081 0x0000003F#32 0#32 [(.r13usr, 0x03007F00#32)] [])
    (fun t => (t.cpu.regs.r13usr)) =
    some (0x03007EFC#32) := by
  decide +kernel

theorem test_thumb_push : after (setupThumb 0xB503 0x0000003F#32 0#32 [(.r0, 0x00000001#32), (.r1, 0x00000002#32), (.r13usr, 0x03007F00#32), (.r14usr, 0x08000004#32)] [])
    (fun t => (readBytes t.bus.mem 0x03007EF4 .word, readBytes t.bus.mem 0x03007EF8 .word, readBytes t.bus.mem 0x03007EFC .word, t.cpu.regs.r13usr, t.cycleCounter)) =
    some (0x00000001#32, 0x00000002#32, 0x08000004#32, 0x03007EF4#32, 4) := by
  decide +kernel

theorem test_thumb_pop : after (setupThumb 0xBD03 0x0000003F#32 0#32 [(.r13usr, 0x03007EF4#32)] [(0x03007EF4, 0xAAAAAAAA#32), (0x03007EF8, 0xBBBBBBBB#32), (0x03007EFC, 0x08000101#32)])
    (fun t => (t.cpu.regs.r0, t.cpu.regs.r1, t.cpu.regs.r15, t.cpu.cpsr, t.cpu.regs.r13usr, t.cycleCounter)) =
    some (0xAAAAAAAA#32, 0xBBBBBBBB#32, 0x08000100#32, 0x0000003F#32, 0x03007F00#32, 7) := by
  decide +kernel

theorem test_thumb_stmia : after (setupThumb 0xC103 0x0000003F#32 0#32 [(.r0, 0x00000066#32), (.r1, 0x03000040#32)] [])
    (fun t => (readBytes t.bus.mem 0x03000040 .word, readBytes t.bus.mem 0x03000044 .word, t.cpu.regs.r1, t.cycleCounter)) =
    some (0x00000066#32, 0x03000048#32, 0x03000048#32, 3) := by
  decide +kernel

theorem test_thumb_ldmia : after (setupThumb 0xC803 0x0000003F#32 0#32 [(.r0, 0x03000000#32)] [(0x03000000, 0xDEADBEEF#32), (0x03000004, 0x8001AABB#32)])
    (fun t => (t.cpu.regs.r0, t.cpu.regs.r1, t.cycleCounter)) =
    some (0xDEADBEEF#32, 0x8001AABB#32, 4) := by
  decide +kernel

theorem test_thumb_b_cond_taken : after (setupThumb 0xD0FE 0x4000003F#32 0#32 [] [])
    (fun t => (t.cpu.regs.r15, t.cpu.latchValid, t.cycleCounter)) =
    some (0x03000100#32, false, 3) := by
  decide +kernel

theorem test_thumb_b_cond_not_taken : after (setupThumb 0xD0FE 0x0000003F#32 0#32 [] [])
    (fun t => (t.cpu.regs.r15, t.cpu.latchValid, t.cycleCounter)) =
    some (0x03000104#32, true, 1) := by
  decide +kernel

theorem test_thumb_swi : after (setupThumb 0xDF05 0x00000030#32 0#32 [] [])
    (fun t => (t.cpu.cpsr, t.cpu.regs.r14svc, t.cpu.spsr.svc, t.cpu.regs.r15, t.cycleCounter)) =
    some (0x00000093#32, 0x03000102#32, 0x00000030#32, 0x00000008#32, 3) := by
  decide +kernel

theorem test_thumb_b_backwards : after (setupThumb 0xE400 0x0000003F#32 0#32 [] [])
    (fun t => (t.cpu.regs.r15, t.cycleCounter)) =
    some (0x02FFF904#32, 3) := by
  decide +kernel

theorem test_thumb_bl_first : after (setupThumb 0xF7FF 0x0000003F#32 0#32 [] [])
    (fun t => (t.cpu.regs.r14usr, t.cycleCounter)) =
    some (0x02FFF104#32, 1) := by
  decide +kernel

theorem test_thumb_bl_second : after (setupThumb 0xF802 0x0000003F#32 0#32 [(.r14usr, 0x08000000#32)] [])
    (fun t => (t.cpu.regs.r15, t.cpu.regs.r14usr, t.cycleCounter)) =
    some (0x08000004#32, 0x03000103#32, 3) := by
  decide +kernel

theorem test_thumb_no_class_e8 : after (setupThumb 0xE800 0x0000003F#32 0#32 [] [])
    (fun t => (t.fatal)) =
    some (some (.decodeError 0x0000E800#32 true)) := by
  decide +kernel

theorem test_thumb_no_class_b0 : after (setupThumb 0xB100 0x0000003F#32 0#32 [] [])
    (fun t => (t.fatal)) =
    some (some (.decodeError 0x0000B100#32 true)) := by
  decide +kernel

/-! ## Decoding (masks, matches and fields of `30_encoding.md` R222-R258) -/

theorem test_decode_branch_system : badArm [
    (0xE12FFF13#32, .armBx .al 3#4), (0x0AFFFFFE#32, .armB .eq 0xFFFFFE#24), (0xEB00003E#32, .armBl .al 0x00003E#24),
    (0xEF123456#32, .armSwi .al 0x123456#24), (0xE7F000F0#32, .armUnd .al), (0xEC100000#32, .armNoClassCoprocTransfer .al),
    (0xFE000000#32, .armNoClassCoprocOperation .nv)] = [] := by
  decide +kernel

theorem test_decode_block : badArm [
    (0xE8B00006#32, .armLdm .al ⟨false, true, false, true⟩ 0#4 0x0006#16),
    (0xE95D8001#32, .armLdm .al ⟨true, false, true, false⟩ 13#4 0x8001#16),
    (0xE92D4001#32, .armStm .al ⟨true, false, false, true⟩ 13#4 0x4001#16)] = [] := by
  decide +kernel

theorem test_decode_transfer : badArm [
    (0xE5910001#32, .armLdr .al ⟨true, true, false⟩ 1#4 0#4 (.imm 0x001#12)),
    (0xE7912103#32, .armLdr .al ⟨true, true, false⟩ 1#4 2#4 (.reg 3#4 .lsl 2#5)),
    (0xE4D12FFF#32, .armLdrb .al ⟨false, true, false⟩ 1#4 2#4 (.imm 0xFFF#12)),
    (0xE5212004#32, .armStr .al ⟨true, false, true⟩ 1#4 2#4 (.imm 0x004#12)),
    (0xE64121E3#32, .armStrb .al ⟨false, false, false⟩ 1#4 2#4 (.reg 3#4 .ror 3#5)),
    (0xE1010092#32, .armSwp .al 1#4 0#4 2#4), (0xE1413092#32, .armSwpb .al 1#4 3#4 2#4)] = [] := by
  decide +kernel

theorem test_decode_half_signed : badArm [
    (0xE1C123B4#32, .armStrh .al ⟨true, true, false⟩ 1#4 2#4 (.imm 0x34#8)),
    (0xE09120B3#32, .armLdrh .al ⟨false, true, false⟩ 1#4 2#4 (.reg 3#4)),
    (0xE17120D5#32, .armLdrsb .al ⟨true, false, true⟩ 1#4 2#4 (.imm 0x05#8)),
    (0xE1D120F5#32, .armLdrsh .al ⟨true, true, false⟩ 1#4 2#4 (.imm 0x05#8)),
    (0xE1C120D0#32, .armLdrdPosition .al ⟨true, true, false⟩ 1#4 2#4 (.imm 0x00#8)),
    (0xE1C120F0#32, .armStrdPosition .al ⟨true, true, false⟩ 1#4 2#4 (.imm 0x00#8)),
    (0xE1C12090#32, .armReservedSh00 .al)] = [] := by
  decide +kernel

theorem test_decode_multiply : badArm [
    (0xE0050291#32, .armMul .al false 5#4 2#4 1#4), (0xE0353291#32, .armMla .al true 5#4 3#4 2#4 1#4),
    (0xE0810392#32, .armUmull .al false 1#4 0#4 3#4 2#4), (0xE0A10392#32, .armUmlal .al false 1#4 0#4 3#4 2#4),
    (0xE0D10392#32, .armSmull .al true 1#4 0#4 3#4 2#4), (0xE0E10392#32, .armSmlal .al false 1#4 0#4 3#4 2#4)] = [] := by
  decide +kernel

theorem test_decode_psr : badArm [
    (0xE10F3000#32, .armMrs .al false 3#4), (0xE14F0000#32, .armMrs .al true 0#4), (0xE3000000#32, .armReservedPsr .al),
    (0xE3400000#32, .armReservedPsr .al), (0xE121F003#32, .armMsrReg .al false 1#4 3#4),
    (0xE169F000#32, .armMsrReg .al true 9#4 0#4), (0xE328F2F0#32, .armMsrImm .al false 8#4 2#4 0xF0#8)] = [] := by
  decide +kernel

theorem test_decode_data_processing : badArm [
    (0xE21124FF#32, .armAnd .al true 1#4 2#4 (.imm 4#4 0xFF#8)),
    (0xE0212003#32, .armEor .al false 1#4 2#4 (.shiftImm 3#4 .lsl 0#5)),
    (0xE05121A3#32, .armSub .al true 1#4 2#4 (.shiftImm 3#4 .lsr 3#5)),
    (0xE2712000#32, .armRsb .al true 1#4 2#4 (.imm 0#4 0#8)),
    (0xE09124C3#32, .armAdd .al true 1#4 2#4 (.shiftImm 3#4 .asr 9#5)),
    (0xE0A12473#32, .armAdc .al false 1#4 2#4 (.shiftReg 3#4 .ror 4#4)),
    (0xE0D12003#32, .armSbc .al true 1#4 2#4 (.shiftImm 3#4 .lsl 0#5)),
    (0xE0F12003#32, .armRsc .al true 1#4 2#4 (.shiftImm 3#4 .lsl 0#5)),
    (0xE1120003#32, .armTst .al 2#4 (.shiftImm 3#4 .lsl 0#5)), (0xE1320003#32, .armTeq .al 2#4 (.shiftImm 3#4 .lsl 0#5)),
    (0xE1520003#32, .armCmp .al 2#4 (.shiftImm 3#4 .lsl 0#5)), (0xE1720003#32, .armCmn .al 2#4 (.shiftImm 3#4 .lsl 0#5)),
    (0xE1812003#32, .armOrr .al false 1#4 2#4 (.shiftImm 3#4 .lsl 0#5)),
    (0xE1A0211F#32, .armMov .al false 2#4 (.shiftReg 15#4 .lsl 1#4)),
    (0xE1D12003#32, .armBic .al true 1#4 2#4 (.shiftImm 3#4 .lsl 0#5)),
    (0xE1E02003#32, .armMvn .al false 2#4 (.shiftImm 3#4 .lsl 0#5))] = [] := by
  decide +kernel

theorem test_decode_thumb_alu : badThumb [
    (0x0148#16, .thumbLslImm 5#5 1#3 0#3), (0x0948#16, .thumbLsrImm 5#5 1#3 0#3), (0x1148#16, .thumbAsrImm 5#5 1#3 0#3),
    (0x1888#16, .thumbAddReg 2#3 1#3 0#3), (0x1A88#16, .thumbSubReg 2#3 1#3 0#3),
    (0x1DC8#16, .thumbAddImm3 7#3 1#3 0#3), (0x1E48#16, .thumbSubImm3 1#3 1#3 0#3),
    (0x2105#16, .thumbMovImm 1#3 5#8), (0x2905#16, .thumbCmpImm 1#3 5#8), (0x3105#16, .thumbAddImm8 1#3 5#8),
    (0x3905#16, .thumbSubImm8 1#3 5#8),
    (0x4008#16, .thumbAnd 1#3 0#3), (0x4048#16, .thumbEor 1#3 0#3), (0x4088#16, .thumbLslReg 1#3 0#3),
    (0x40C8#16, .thumbLsrReg 1#3 0#3), (0x4108#16, .thumbAsrReg 1#3 0#3), (0x4148#16, .thumbAdc 1#3 0#3),
    (0x4188#16, .thumbSbc 1#3 0#3), (0x41C8#16, .thumbRor 1#3 0#3), (0x4208#16, .thumbTst 1#3 0#3),
    (0x4248#16, .thumbNeg 1#3 0#3), (0x4288#16, .thumbCmp 1#3 0#3), (0x42C8#16, .thumbCmn 1#3 0#3),
    (0x4308#16, .thumbOrr 1#3 0#3), (0x4348#16, .thumbMul 1#3 0#3), (0x4388#16, .thumbBic 1#3 0#3),
    (0x43C8#16, .thumbMvn 1#3 0#3),
    (0x4488#16, .thumbAddHi 8#4 1#4), (0x4541#16, .thumbCmpHi 1#4 8#4), (0x46C0#16, .thumbMovHi 8#4 8#4),
    (0x4770#16, .thumbBx 14#4)] = [] := by
  decide +kernel

theorem test_decode_thumb_transfer : badThumb [
    (0x4904#16, .thumbLdrPc 1#3 4#8), (0x5088#16, .thumbStrReg 2#3 1#3 0#3), (0x5488#16, .thumbStrbReg 2#3 1#3 0#3),
    (0x5888#16, .thumbLdrReg 2#3 1#3 0#3), (0x5C88#16, .thumbLdrbReg 2#3 1#3 0#3), (0x5288#16, .thumbStrhReg 2#3 1#3 0#3),
    (0x5688#16, .thumbLdsbReg 2#3 1#3 0#3), (0x5A88#16, .thumbLdrhReg 2#3 1#3 0#3), (0x5E88#16, .thumbLdshReg 2#3 1#3 0#3),
    (0x6048#16, .thumbStrImm 1#5 1#3 0#3), (0x6848#16, .thumbLdrImm 1#5 1#3 0#3), (0x7048#16, .thumbStrbImm 1#5 1#3 0#3),
    (0x7848#16, .thumbLdrbImm 1#5 1#3 0#3), (0x8048#16, .thumbStrhImm 1#5 1#3 0#3), (0x8848#16, .thumbLdrhImm 1#5 1#3 0#3),
    (0x9104#16, .thumbStrSp 1#3 4#8), (0x9904#16, .thumbLdrSp 1#3 4#8), (0xA104#16, .thumbAddRdPc 1#3 4#8),
    (0xA904#16, .thumbAddRdSp 1#3 4#8), (0xB004#16, .thumbAddSp 4#7), (0xB084#16, .thumbSubSp 4#7),
    (0xB503#16, .thumbPush true 3#8), (0xBC03#16, .thumbPop false 3#8), (0xC103#16, .thumbStmia 1#3 3#8),
    (0xC903#16, .thumbLdmia 1#3 3#8)] = [] := by
  decide +kernel

theorem test_decode_thumb_branch : badThumb [
    (0xD0FE#16, .thumbBcond .eq 0xFE#8), (0xDEFE#16, .thumbBcond .al 0xFE#8), (0xDF05#16, .thumbSwi 5#8),
    (0xE7FE#16, .thumbB 0x7FE#11), (0xE800#16, .thumbNoClassE8), (0xB100#16, .thumbNoClassB0),
    (0xF000#16, .thumbBlFirst 0#11), (0xF802#16, .thumbBlSecond 2#11)] = [] := by
  decide +kernel

/-- Bytes are read little-endian, and what holds no whole word is rejected by name (R220). -/
theorem test_decode_bytes :
    (decode false [0x01#8, 0x00#8, 0xA0#8, 0xE3#8, 0x55#8]).toOption = some (.armMov .al false 0#4 (.imm 0#4 1#8), [0x55#8]) ∧
    (decode true [0x03#8, 0xB5#8]).toOption = some (.thumbPush true 3#8, []) ∧
    (decode false [0x01#8, 0x00#8, 0xA0#8]).toOption = none ∧ (decode true [0x03#8]).toOption = none := by
  decide +kernel

/-! ## Well-formedness -/

/-- A conditional branch under the condition 0xF has no word: that word is SWI (R240, R257). -/
theorem test_wellFormed_bcond_nv : (Instr.thumbBcond .nv 5#8).wellFormed = false ∧
    decodeThumb (encodeThumb (.thumbBcond .nv 5#8)) = .thumbSwi 5#8 := by
  decide +kernel

/-! ## The memory map (`95_test_vectors.md` 2.14) -/

theorem test_video_byte_stores_double :
    readBytes (stores [(0x05000003#32, .byte, 0x5A#32)] State.reset.bus).mem 0x05000002 .half = 0x5A5A#32 ∧
    readBytes (stores [(0x06000001#32, .byte, 0x5A#32)] State.reset.bus).mem 0x06000000 .half = 0x5A5A#32 ∧
    (stores [(0x07000000#32, .byte, 0x5A#32), (0x08000000#32, .word, 0x12345678#32), (0x00000000#32, .word, 1#32)]
      State.reset.bus) = State.reset.bus := by
  decide +kernel

theorem test_mirrors :
    let b := stores [(0x02000000#32, .word, 0x11223344#32), (0x0300C004#32, .word, 0x55667788#32),
      (0x06018000#32, .word, 0x99AABBCC#32)] State.reset.bus
    readRaw b 0 0x02040000#32 .word = 0x11223344#32 ∧ readRaw b 0 0x03004004#32 .word = 0x55667788#32 ∧
    readRaw b 0 0x06010000#32 .word = 0x99AABBCC#32 := by
  decide +kernel

theorem test_bios_lane : let b := { State.reset.bus with biosBus := 0x11223344#32 }
    readRaw b 0x08000008#32 0x00000011#32 .byte = 0x33#32 ∧ readRaw b 0x08000008#32 0x00000010#32 .word = 0x11223344#32 ∧
    readRaw b 0x00000108#32 0x00000010#32 .word = 0#32 := by
  decide +kernel

/-! ## I/O registers (`95_test_vectors.md` 2.15) -/

theorem test_io_interrupt_registers :
    let b := stores [(0x04000202#32, .half, 8#32), (0x04000200#32, .half, 0xFFFF#32), (0x04000208#32, .half, 0xFFFF#32),
      (0x04000130#32, .half, 0x1234#32)] { State.reset.bus with io := { Io.reset with irf := 0x000A#16 } }
    readRaw b 0 0x04000202#32 .half = 2#32 ∧ readRaw b 0 0x04000200#32 .half = 0x3FFF#32 ∧
    readRaw b 0 0x04000208#32 .half = 1#32 ∧ readRaw b 0 0x04000130#32 .half = 0x03FF#32 := by
  decide +kernel

theorem test_io_timer_enable :
    let b := stores [(0x04000100#32, .half, 0xFF00#32), (0x04000102#32, .half, 0x00C0#32)] State.reset.bus
    (b.io.timer.get 0) = ⟨0xFF00#16, 0xFF00, 0xC0#8, 0⟩ ∧
    readRaw (timersAdvance 0 2 b) 0 0x04000100#32 .half = 0xFF02#32 := by
  decide +kernel

/-- HALTCNT (R201). -/
theorem test_io_haltcnt : (stores [(0x04000301#32, .byte, 0#32)] State.reset.bus).run = .halt ∧
    (stores [(0x04000301#32, .byte, 0x80#32)] State.reset.bus).run = .stop := by
  decide +kernel

/-- The tables of WAITCNT = 0 and of a new value (R112-R114). -/
theorem test_wait_tables :
    (let t := State.reset.bus.wait
     t.rom0 = ⟨5, 3, 8, 6⟩ ∧ t.rom1 = ⟨5, 5, 10, 10⟩ ∧ t.rom2 = ⟨5, 9, 14, 18⟩ ∧ t.backup.n16 = 5 ∧ t.backup.s16 = 5 ∧
     t.ewram = ⟨3, 3, 6, 6⟩) ∧
    (let t := (stores [(0x04000204#32, .half, 0x0017#32)] State.reset.bus).wait
     t.rom0 = ⟨4, 2, 6, 4⟩ ∧ t.backup.n16 = 9 ∧ t.backup.s16 = 9) := by
  decide +kernel

/-! ## Backup devices (`21_backup.md` R152, R166; `95_test_vectors.md` 2.16, 2.17) -/

theorem test_flash_program :
    let b := backupStores [(0x5555, 0xAA#8), (0x2AAA, 0x55#8), (0x5555, 0xA0#8), (0x1234, 0x5A#8)] State.reset.bus
    b.flash.guard = 0 ∧ b.flash.mode = .idle ∧ b.flash.used = true ∧ b.flash.store.read 0x01234 = 0x5A#8 ∧
    b.mem.read (sramKey 0x5555) = 0xA0#8 ∧ b.mem.read (sramKey 0x2AAA) = 0x55#8 ∧
    backupReadByte b 0x1234 = 0x5A#8 ∧ backupReadByte b 0x5555 = 0#8 := by
  decide +kernel

theorem test_flash_bank_and_id :
    let b := backupStores [(0x5555, 0xAA#8), (0x2AAA, 0x55#8), (0x5555, 0xB0#8), (0, 0x01#8),
      (0x5555, 0xAA#8), (0x2AAA, 0x55#8), (0x5555, 0x90#8)] State.reset.bus
    b.flash.bank = true ∧ b.flash.idMode = true ∧ backupReadByte b 0 = b.params.flashManufacturer ∧
    backupReadByte b 1 = b.params.flashDevice := by
  decide +kernel

/-- The halfword stores of an EEPROM request, the bits given most significant first. -/
def eepromBits (l : List Bool) (e : Eeprom) : Eeprom :=
  l.foldl (fun e bit => e.writeBit bit) { e with idx := 0, reqLen := some l.length }

/-- The bits of a byte, most significant first. -/
def msbFirst (v : Byte) : List Bool := (List.range 8).map fun j => v.getLsbD (7 - j)

theorem test_eeprom_write_then_read :
    let e := eepromBits ([true, false, false, false, false, false, true, false] ++
      ([0x01#8, 0x23#8, 0x45#8, 0x67#8, 0x89#8, 0xAB#8, 0xCD#8, 0xEF#8].flatMap msbFirst) ++ [false])
      State.reset.bus.eeprom
    let e := eepromBits [true, true, false, false, false, false, true, false, false] e
    ((List.range 8).map fun j => e.store.read (0x10 + j)) =
      [0x01#8, 0x23#8, 0x45#8, 0x67#8, 0x89#8, 0xAB#8, 0xCD#8, 0xEF#8] ∧ e.readAddr = 0x10#13 ∧
    ((List.range 12).map fun i => (Eeprom.afterRead^[i] e).readBit) =
      [false, false, false, false, false, false, false, false, false, false, false, true] := by
  decide +kernel

/-- The parameter EEPROM_WINDOW at another predicate (R7): the first range is outside the ROM window and reaches nothing. -/
theorem test_eeprom_window_parameter :
    let b := { State.reset.bus with params := { Params.default with
      eepromWindow := .ranges [(0x02000000#32, 0x020000FF#32), (0x09000100#32, 0x090001FF#32)] } }
    eepromWindow b 0x090001FF#32 true = true ∧ eepromWindow b 0x090001FF#32 false = false ∧
    eepromWindow b 0x09000200#32 true = false ∧ eepromWindow b 0x0D000000#32 true = false ∧
    eepromWindow b 0x02000000#32 true = false ∧
    (stores [(0x09000100#32, .half, 1#32)] b).eeprom.used = true := by
  decide +kernel

/-! ## DMA (`50_dma.md` R516; `95_test_vectors.md` 2.18) -/

theorem test_dma_immediate :
    let b := stores [(0x04000000#32 + 0xD4#32, .word, 0x03000000#32), (0x040000D8#32, .word, 0x02000000#32),
      (0x040000DC#32, .half, 4#32), (0x040000DE#32, .half, 0xC000#32)]
      { State.reset.bus with mem := words [(0x03000000, 0x11223344#32), (0x03000004, 0x55667788#32)] }
    readBytes b.mem 0x02000000 .word = 0x11223344#32 ∧ readBytes b.mem 0x02000004 .word = 0x55667788#32 ∧
    (b.io.dma.get 3).src = 0x03000008#32 ∧ (b.io.dma.get 3).dst = 0x02000008#32 ∧
    readRaw b 0 0x040000DE#32 .half = 0x4000#32 ∧ b.io.irf = 0x0800#16 ∧ b.refusal = none := by
  decide +kernel

theorem test_dma_decrement :
    let b := stores [(0x040000B0#32, .word, 0x03000010#32), (0x040000B4#32, .word, 0x02000010#32),
      (0x040000B8#32, .half, 2#32), (0x040000BA#32, .half, 0x84A0#32)]
      { State.reset.bus with mem := words [(0x0300000C, 0xAAAAAAAA#32), (0x03000010, 0xBBBBBBBB#32)] }
    readBytes b.mem 0x02000010 .word = 0xBBBBBBBB#32 ∧ readBytes b.mem 0x0200000C .word = 0xAAAAAAAA#32 ∧
    (b.io.dma.get 0).src = 0x03000008#32 ∧ (b.io.dma.get 0).dst = 0x02000008#32 := by
  decide +kernel

/-- FIFO A at 16 bytes, channel 1 armed with TIMING = 3: one byte out, four words in (R512, R515). -/
def fifoBus : Bus :=
  { State.reset.bus with
    io := { Io.reset with fifoA := 16, dma := Io.reset.dma.set 1 ⟨0, 0, 0, 0xB400#16, 0x02000000#32, 0x040000A0#32, 4⟩ } }

theorem test_fifo_service : let b := fifoOverflowA 0 0 fifoBus
    b.io.fifoA = 31 ∧ (b.io.dma.get 1).src = 0x02000010#32 ∧ (b.io.dma.get 1).remaining = 4 ∧ b.io.irf = 0#16 := by
  decide +kernel

/-- FIFO B on timer 1 at 17 bytes, channel 2 armed with TIMING = 3 and a decrementing source (R512, R515). -/
def fifoBusB : Bus :=
  { State.reset.bus with
    io := { Io.reset with
      soundcntH := 0x4000#16
      fifoB := 17
      dma := Io.reset.dma.set 2 ⟨0, 0, 0, 0xB480#16, 0x02000010#32, 0x040000A4#32, 4⟩ } }

theorem test_fifo_service_b : let b := fifoTimerOverflow 0 1 fifoBusB
    b.io.fifoB = 32 ∧ b.io.fifoA = 0 ∧ (b.io.dma.get 2).src = 0x02000000#32 ∧ (b.io.dma.get 2).dst = 0x040000A4#32 ∧
    (fifoTimerOverflow 0 0 fifoBusB).io.fifoB = 17 := by
  decide +kernel

/-- Channel 0 waits with CNT_H = `on` and its own CNT_H as a fixed destination: its first unit stores `off`, its second `on`. -/
def selfBus (off on : BitVec 16) : Bus :=
  { State.reset.bus with
    mem := words [(0x02000000, on ++ off)]
    io := { Io.reset with
      vcount := 160
      dma := Io.reset.dma.set 0 ⟨0x02000000#32, 0x040000BA#32, 2#16, on, 0x02000000#32, 0x040000BA#32, 2⟩ } }

/-- The run meets the enable edge that R506 leaves open. -/
theorem test_dma_reentry : (dmaTrigger 1#2 0 (selfBus 0x1040#16 0x9040#16)).refusal = some (.dmaReentry 0) := by decide +kernel

/-! ## Timers (`60_exceptions.md` R567; `95_test_vectors.md` 2.19) -/

/-- Timers 0, 1 and 2. -/
def timerBus (t0 t1 t2 : Timer) : Bus :=
  { State.reset.bus with io := { Io.reset with timer := ⟨t0, t1, t2, Timer.reset⟩ } }

theorem test_timer_overflow_cascades :
    let b := timersAdvance 0 3 (timerBus ⟨0xFFF0#16, 0xFFFE, 0xC0#8, 0⟩ ⟨0#16, 5, 0x84#8, 0⟩ Timer.reset)
    (b.io.timer.get 0).counter = 0xFFF1 ∧ (b.io.timer.get 1).counter = 6 ∧ b.io.irf = 8#16 := by
  decide +kernel

theorem test_timer_chain :
    let b := timersAdvance 0 1 (timerBus ⟨0#16, 0xFFFF, 0x80#8, 0⟩ ⟨0#16, 0xFFFF, 0x87#8, 0⟩ ⟨0#16, 7, 0x84#8, 0⟩)
    (b.io.timer.get 0).counter = 0 ∧ (b.io.timer.get 1).counter = 0 ∧ (b.io.timer.get 2).counter = 8 := by
  decide +kernel

theorem test_timer_prescaler :
    ((timersAdvance 0 10 (timerBus ⟨0#16, 0, 0x81#8, 60⟩ Timer.reset Timer.reset)).io.timer.get 0) = ⟨0#16, 1, 0x81#8, 6⟩ ∧
    ((timersAdvance 0 3 (timerBus ⟨0xFFFF#16, 0xFFFF, 0x80#8, 0⟩ Timer.reset Timer.reset)).io.timer.get 0).counter
      = 0x10001 := by
  decide +kernel

/-- The abort rows of R532 have "PC-4" in Thumb state too; SWI "PC-2". -/
theorem test_abort_link :
    let s := setupThumb 0x46C0 0x3F#32 0 [] []
    (s.enter .dataAbort).cpu.regs.r14abt = s.r15 - 4#32 ∧ (s.enter .address26).cpu.regs.r14svc = s.r15 - 4#32 ∧
    (s.enter .softwareInterrupt).cpu.regs.r14svc = s.r15 - 2#32 := by
  decide +kernel

/-! ## Interrupts and HALT (`95_test_vectors.md` 2.20) -/

/-- A state with the V-blank interrupt enabled and pending. -/
def pending (s : State) : State :=
  { s with bus := { s.bus with io := { s.bus.io with ie := 1#16, irf := 1#16, ime := true } } }

theorem test_irq_arm : after (pending (setupArm 0xE3A00001 0x1F#32 0 [] []))
    (fun t => (t.cpu.regs.r0, t.cpu.regs.r14irq, t.cpu.spsr.irq, t.cpu.cpsr, t.cpu.regs.r15, t.cpu.latchValid)) =
    some (1#32, 0x03000108#32, 0x1F#32, 0x92#32, 0x18#32, false) := by
  decide +kernel

theorem test_irq_after_branch : after (pending (setupArm 0xEAFFFFFE 0x1F#32 0 [] []))
    (fun t => (t.cpu.regs.r14irq, t.cpu.regs.r15)) = some (0x03000104#32, 0x18#32) := by
  decide +kernel

theorem test_irq_thumb : after (pending (setupThumb 0x2001 0x3F#32 0 [] []))
    (fun t => (t.cpu.regs.r14irq, t.cpu.spsr.irq, t.cpu.cpsr)) = some (0x03000106#32, 0x3F#32, 0x92#32) := by
  decide +kernel

/-- R276, R545, R535, R542: SUBS pc, lr, #4 with the served bit still in IF. The sample of that step uses the restored I, so
the IRQ is entered again with N the resumed address; entry clears nothing. -/
theorem test_unacknowledged_irq_is_entered_again :
    after (pending (setupArm 0xE25EF004 0x92#32 0x1F#32 [(.r14irq, 0x08000044#32)] []))
      (fun t => (t.cpu.regs.r14irq, t.cpu.spsr.irq, t.cpu.cpsr, t.cpu.regs.r15, t.bus.io.irf)) =
    some (0x08000044#32, 0x1F#32, 0x92#32, 0x18#32, 1#16) := by
  decide +kernel

theorem test_irq_masked : after (pending (setupArm 0xE3A00001 0x9F#32 0 [] []))
    (fun t => (t.cpu.cpsr, t.bus.io.irf)) = some (0x9F#32, 1#16) := by
  decide +kernel

theorem test_halt_wakes_with_irq_masked :
    let s := pending (setupArm 0xE3A00001 0x9F#32 0 [] [])
    after { s with bus := { s.bus with run := .halt } } (fun t => (t.bus.run, t.cpu.cpsr, t.cycleCounter)) =
      some (.run, 0x9F#32, 0) := by
  decide +kernel

/-! ## Witnesses: states and operands that meet the hypotheses of the obligations -/

theorem next_of_isSome {r : Result} (h : (nextState r).isSome = true) : ∃ t, r = .next t := by
  cases r with
  | next t => exact ⟨t, rfl⟩
  | fault f => cases h
  | refused f => cases h

/-- SYS mode, ARM state; r1 points into IWRAM, r3 at its end, r2 at the I/O file. -/
def sysArm : State :=
  setupArm 0xE0910002 0x1F#32 0#32 [(.r1, 0x03000000#32), (.r2, 0x04000200#32), (.r3, 0x03007FFC#32), (.r13usr, 0x03007F00#32)]
    [(0x03000000, 0xDEADBEEF#32), (0x03000004, 0x8001AABB#32)]

/-- SVC mode, ARM state, with an SPSR that names SYS in Thumb state. -/
def svcArm : State :=
  setupArm 0xE1B0F00E 0x13#32 0x8000003F#32 [(.r1, 0x03000000#32), (.r14svc, 0x08000004#32)] []

/-- SVC mode with an SPSR that names no mode. -/
def svcBad : State := setupArm 0xE1B0F00E 0x13#32 0x80000000#32 [(.r1, 0x03000000#32)] []

/-- USER mode, ARM state. -/
def usrArm : State := setupArm 0xE321F0D3 0x10#32 0#32 [(.r1, 0x03000000#32)] []

/-- SYS mode, Thumb state. -/
def sysThumb : State :=
  setupThumb 0x1888 0x3F#32 0#32 [(.r1, 0x03000000#32), (.r2, 0x03007FFC#32), (.r13usr, 0x03007F00#32)]
    [(0x03000000, 0xDEADBEEF#32)]

/-- A machine that implements SWP. -/
def swapArm : State :=
  { sysArm with bus := { sysArm.bus with params := { sysArm.bus.params with swpImplemented := true } } }

theorem sysArm_running : sysArm.Running := ⟨⟨rfl, rfl⟩, rfl, rfl, by decide +kernel⟩

theorem sysThumb_running : sysThumb.Running := ⟨⟨rfl, rfl⟩, rfl, rfl, by decide +kernel⟩

theorem sysArm_inv : sysArm.Inv := by
  refine ⟨by decide +kernel, by decide +kernel, ⟨by decide +kernel, Memory.nil_wf, ?_, ?_, rfl⟩⟩
  · exact ⟨Memory.nil_wf, by decide +kernel, by decide +kernel, by decide +kernel, by decide +kernel⟩
  · refine ⟨by decide +kernel, by decide +kernel, by decide +kernel, by decide +kernel, by decide +kernel, ?_, ?_,
      by decide +kernel, by decide +kernel, by decide +kernel, by decide +kernel, Memory.nil_wf⟩
    · intro c; fin_cases c <;> exact ⟨by decide +kernel, by decide +kernel, by decide +kernel, by decide +kernel⟩
    · intro c; fin_cases c <;> exact ⟨by decide +kernel, by decide +kernel⟩

theorem witness_roundTrip : (Instr.thumbBcond .al 0x80#8).wellFormed = true ∧
    (Instr.armLdm .nv ⟨true, true, true, true⟩ 15#4 0xFFFF#16).wellFormed = true := by
  decide

/-- The opcode that the next CPU step of a state takes. -/
def nextOpcode (s : State) : Word := if s.cpu.latchValid then s.cpu.latchOp else fetchValue s.bus s.r15 s.fetchWidth

/-- The bytes of that opcode. -/
def nextBytes (s : State) : List Byte :=
  if s.thumb then [lane (nextOpcode s) 0, lane (nextOpcode s) 1]
  else [lane (nextOpcode s) 0, lane (nextOpcode s) 1, lane (nextOpcode s) 2, lane (nextOpcode s) 3]

theorem witness_step_arm : sysArm.Running ∧
    (decode sysArm.thumb (nextBytes sysArm)).toOption = some (.armAdd .al true 1#4 0#4 (.shiftImm 2#4 .lsl 0#5), []) :=
  ⟨sysArm_running, by decide +kernel⟩

theorem witness_step_thumb : sysThumb.Running ∧
    (decode sysThumb.thumb (nextBytes sysThumb)).toOption = some (.thumbAddReg 2#3 1#3 0#3, []) :=
  ⟨sysThumb_running, by decide +kernel⟩

theorem witness_step_latch : let s := { sysArm with cpu := { sysArm.cpu with latchValid := true, latchOp := 0xE3A00001#32 } }
    s.Running ∧ (decode s.thumb (nextBytes s)).toOption = some (.armMov .al false 0#4 (.imm 0#4 1#8), []) :=
  ⟨⟨⟨rfl, rfl⟩, rfl, rfl, by decide +kernel⟩, by decide +kernel⟩

/-- With the default `Cycles` (the states above) and with another. -/
theorem witness_step_cycles : sysArm.bus.params.cycles = .default ∧
    (let s := { sysArm with bus := { sysArm.bus with params := { sysArm.bus.params with cycles := .other } } }
     s.Running ∧ s.bus.params.cycles = .other ∧
     (decode s.thumb (nextBytes s)).toOption = some (.armAdd .al true 1#4 0#4 (.shiftImm 2#4 .lsl 0#5), [])) :=
  ⟨rfl, ⟨⟨rfl, rfl⟩, rfl, rfl, by decide +kernel⟩, rfl, by decide +kernel⟩

theorem witness_invKept : sysArm.Inv ∧ ∃ t, step sysArm = .next t :=
  ⟨sysArm_inv, next_of_isSome (by decide +kernel)⟩

theorem witness_reset : { sysArm with inputs := ⟨[], [], [true]⟩ }.resetLine = true := rfl

theorem witness_conditions : sysArm.condPass .eq = false ∧ instrCond (.armMov .eq false 0#4 (.imm 0#4 1#8)) = some .eq ∧
    sysThumb.condPass .nv = false ∧ (∃ off, Instr.thumbBcond .nv 0#8 = .thumbBcond .nv off) ∧ sysArm.condPass .al = true :=
  ⟨by decide +kernel, rfl, by decide +kernel, ⟨_, rfl⟩, by decide +kernel⟩

/-- With S and a register below r15, and without S to r15. -/
theorem witness_dataProcessing : sysArm.condPass .al = true ∧ (true = true → (14#4 : Reg) ≠ 15#4) ∧
    differenceRow (.armRsc .al true 1#4 14#4 (.imm 0#4 1#8)) (sysArm.operand2 (.imm 0#4 1#8)).1
      (sysArm.operand1 1#4 (.imm 0#4 1#8)) sysArm.flagC ∈ dataProcessingRows sysArm .al true 1#4 14#4 (.imm 0#4 1#8) ∧
    sumRow (.armAdd .al false 1#4 15#4 (.imm 0#4 1#8)) (sysArm.operand1 1#4 (.imm 0#4 1#8))
      (sysArm.operand2 (.imm 0#4 1#8)).1 false ∈ dataProcessingRows sysArm .al false 1#4 15#4 (.imm 0#4 1#8) :=
  ⟨by decide +kernel, by decide, by simp [dataProcessingRows, arithmeticRows], by simp [dataProcessingRows, arithmeticRows]⟩

theorem witness_tests : sysArm.condPass .al = true ∧
    (⟨.armTst .al 1#4 (.imm 0#4 1#8), 1#32 &&& 2#32, false, true⟩ : ResultRow) ∈
      testRows .al 1#4 (.imm 0#4 1#8) 1#32 2#32 false true :=
  ⟨by decide +kernel, by simp [testRows]⟩

theorem witness_returns : svcArm.condPass .al = true ∧ (svcArm.cpu.spsr.get svcArm.mode = some 0x8000003F#32 ∧
      legalMode 0x8000003F#32 = true) ∧ sysArm.cpu.spsr.get sysArm.mode = none ∧
    (svcBad.cpu.spsr.get svcBad.mode = some 0x80000000#32 ∧ legalMode 0x80000000#32 = false) ∧
    (⟨.armMov .al true 15#4 (.imm 0#4 1#8), (svcArm.operand2 (.imm 0#4 1#8)).1, (svcArm.operand2 (.imm 0#4 1#8)).2,
      svcArm.flagV⟩ : ResultRow) ∈ dataProcessingRows svcArm .al true 14#4 15#4 (.imm 0#4 1#8) :=
  ⟨by decide +kernel, by decide +kernel, by decide +kernel, by decide +kernel,
    by simp [dataProcessingRows, logicalRows]⟩

theorem witness_longMultiply : sysArm.condPass .al = true ∧
    ∃ p, (Instr.armSmlal .al true 15#4 15#4 1#4 2#4, p, 3) ∈ longMultiplyRows sysArm .al true 15#4 15#4 1#4 2#4 :=
  ⟨by decide +kernel, _, by simp [longMultiplyRows]; rfl⟩

theorem witness_mrs : svcArm.condPass .al = true ∧ svcArm.cpu.spsr.get svcArm.mode = some 0x8000003F#32 := by
  decide +kernel

/-- A legal new CPSR from SVC, an illegal one, the flags byte in USER mode, and an SPSR. -/
theorem witness_msr :
    (svcArm.condPass .al = true ∧ (∀ k, k < 32 → (0x800000D2#32).getLsbD k =
      if (9#4).getLsbD (k / 8) = true ∧ k ≠ 5 ∧ (svcArm.mode = .usr → 24 ≤ k) then (0x800000F2#32).getLsbD k
      else svcArm.cpu.cpsr.getLsbD k) ∧ legalMode 0x800000D2#32 = true) ∧
    ((∀ k, k < 32 → (0x00000000#32).getLsbD k =
      if (1#4).getLsbD (k / 8) = true ∧ k ≠ 5 ∧ (svcArm.mode = .usr → 24 ≤ k) then (0x00000000#32).getLsbD k
      else svcArm.cpu.cpsr.getLsbD k) ∧ legalMode 0#32 = false) ∧
    ((∀ k, k < 32 → (0xF0000010#32).getLsbD k =
      if (15#4).getLsbD (k / 8) = true ∧ k ≠ 5 ∧ (usrArm.mode = .usr → 24 ≤ k) then (0xF00000D3#32).getLsbD k
      else usrArm.cpu.cpsr.getLsbD k) ∧ legalMode 0xF0000010#32 = true) ∧
    (svcArm.cpu.spsr.get svcArm.mode = some 0x8000003F#32 ∧ ∀ k, k < 32 → (0x80000012#32).getLsbD k =
      if (1#4).getLsbD (k / 8) = true then (0x00000012#32).getLsbD k else (0x8000003F#32).getLsbD k) := by
  decide +kernel

theorem witness_psrFatal : (0xE3400000#32 &&& 0x0FB00000#32 = 0x03000000#32) ∧ sysArm.condPass .al = true ∧
    sysArm.thumb = false ∧ sysArm.mode = .sys ∧ usrArm.mode = .usr ∧ usrArm.condPass .al = true ∧
    Instr.armMsrImm .al true 1#4 0#4 0x1F#8 ∈
      [Instr.armMrs .al true 0#4, .armMsrReg .al true 1#4 0#4, .armMsrImm .al true 1#4 0#4 0x1F#8] := by
  decide +kernel

theorem witness_armLoads : sysArm.condPass .al = true ∧
    (Instr.armLdrsh .al ⟨false, true, true⟩ 1#4 1#4 (.imm 5#8), LoadKind.signedHalf, sysArm.offset8 (.imm 5#8)) ∈
      armLoadRows sysArm .al ⟨false, true, true⟩ 1#4 1#4 (.imm 0#12) (.imm 5#8) :=
  ⟨by decide +kernel, by simp [armLoadRows]⟩

/-- The last word of IWRAM, an interrupt register, and the byte below a DMA control register. -/
theorem witness_storeReady : StoreReady sysArm 0x03007FFF#32 .word ∧ StoreReady sysArm 0x04000202#32 .half ∧
    StoreReady sysArm 0x040000B9#32 .byte ∧ StoreReady sysArm 0x0D000000#32 .half :=
  ⟨⟨rfl, by decide +kernel, by decide +kernel⟩, ⟨rfl, by decide +kernel, by decide +kernel⟩,
    ⟨rfl, by decide +kernel, by decide +kernel⟩, ⟨rfl, by decide +kernel, by decide +kernel⟩⟩

theorem witness_armStores : sysArm.condPass .al = true ∧ StoreReady sysArm (addressOf ⟨true, true, true⟩ (sysArm.x 3#4) 3#32) .word ∧
    (Instr.armStr .al ⟨true, true, true⟩ 3#4 15#4 (.imm 3#12), Width.word, sysArm.offset12 (.imm 3#12)) ∈
      armStoreRows sysArm .al ⟨true, true, true⟩ 3#4 15#4 (.imm 3#12) (.imm 0#8) :=
  ⟨by decide +kernel, ⟨rfl, by decide +kernel, by decide +kernel⟩, by simp [armStoreRows]⟩

/-- One witness for each clause of what a store leaves: plain storage, a video byte, an ignored store, a device. -/
theorem witness_storeEffect : storesPlainly (Width.word.align 0x03007FFF#32) .word = true ∧ regionOf 0x05000003#32 = .pal ∧
    (regionOf 0x07000000#32 = .oam ∧ regionOf 0x00003FFF#32 = .bios ∧ regionOf 0x01000000#32 = .unmapped) ∧
    (regionOf 0x08000000#32 = .rom ∧ eepromWindow sysArm.bus 0x08000000#32 true = false) ∧
    regionOf 0x040003FF#32 = .io ∧ regionOf 0x0E00FFFF#32 = .backup ∧ eepromWindow sysArm.bus 0x0D000000#32 true = true := by
  decide +kernel

theorem witness_everyInstruction : sysArm.bus.refusal = none := rfl

theorem witness_ldm : sysArm.condPass .al = true ∧ (0x7FFF#16).getLsbD 15 = false ∧
    noEeprom sysArm (blockStartOf ⟨true, false, false, true⟩ (sysArm.x 3#4) (listedBelow 15 0x7FFF#16).length)
      (listedBelow 15 0x7FFF#16).length := by
  unfold noEeprom; decide +kernel

theorem witness_ldmUser : svcArm.condPass .al = true ∧ (⟨false, true, true, false⟩ : BlockMode).psr = true ∧
    (0x6000#16).getLsbD 15 = false ∧
    noEeprom svcArm (blockStartOf ⟨false, true, true, false⟩ (svcArm.x 1#4) (listedBelow 15 0x6000#16).length)
      (listedBelow 15 0x6000#16).length := by
  unfold noEeprom; decide +kernel

theorem witness_ldmPc : svcArm.condPass .al = true ∧ (0x8001#16).getLsbD 15 = true ∧
    noEeprom svcArm (blockStartOf ⟨false, true, true, false⟩ (svcArm.x 1#4) ((listedBelow 15 0x8001#16).length + 1))
      ((listedBelow 15 0x8001#16).length + 1) ∧
    (svcArm.cpu.spsr.get svcArm.mode = some 0x8000003F#32 ∧ legalMode 0x8000003F#32 = true) ∧
    sysArm.cpu.spsr.get sysArm.mode = none ∧
    (svcBad.cpu.spsr.get svcBad.mode = some 0x80000000#32 ∧ legalMode 0x80000000#32 = false) := by
  unfold noEeprom; decide +kernel

theorem witness_stm : sysArm.condPass .al = true ∧ sysArm.bus.refusal = none ∧ sysArm.bus.mem.wf ∧
    allPlain (blockStartOf ⟨true, false, true, true⟩ (sysArm.x 3#4) (listedBelow 16 0xFFFF#16).length)
      (listedBelow 16 0xFFFF#16).length := by
  unfold allPlain; decide +kernel

theorem witness_swap : sysArm.condPass .al = true ∧ sysArm.bus.params.swpImplemented = false ∧
    swapArm.bus.params.swpImplemented = true ∧ StoreReady swapArm (swapArm.x 1#4) .word ∧
    eepromWindow swapArm.bus (Width.word.align (swapArm.x 1#4)) false = false ∧
    (Instr.armSwpb .al 1#4 0#4 2#4, Width.byte, LoadKind.byte) ∈
      [(Instr.armSwp .al 1#4 0#4 2#4, Width.word, LoadKind.word), (.armSwpb .al 1#4 0#4 2#4, .byte, .byte)] :=
  ⟨by decide +kernel, by decide +kernel, rfl, ⟨rfl, by decide +kernel, by decide +kernel⟩, by decide +kernel, by decide⟩

theorem witness_branchWords : 0xEAFFFFFE#32 &&& 0x0F000000#32 = 0x0A000000#32 ∧
    0xFBFFFFFF#32 &&& 0x0F000000#32 = 0x0B000000#32 ∧ 0xE7FE#16 &&& 0xF800#16 = 0xE000#16 ∧
    0xFFFF#16 &&& 0xF800#16 = 0xF800#16 := by
  decide

theorem witness_branchExchange : ∃ i, i = Instr.armBx .al 15#4 ∧ sysArm.condPass .al = true ∨ i = .thumbBx 15#4 :=
  ⟨_, .inr rfl⟩

theorem witness_swi : sysArm.thumb = false ∧ sysArm.condPass .al = true ∧ sysThumb.thumb = true := by decide +kernel

theorem witness_return : legalMode sysThumb.cpu.cpsr = true ∧ alignPc sysThumb.thumb sysThumb.r15 = sysThumb.r15 ∧
    sysThumb.thumb = true ∧ sysThumb.irqLrBias = 4#32 ∧ legalMode usrArm.cpu.cpsr = true ∧
    alignPc usrArm.thumb usrArm.r15 = usrArm.r15 ∧ usrArm.thumb = false ∧ usrArm.condPass .al = true := by
  decide +kernel

/-- One word of each pattern, among them a swap with nonzero bits 11:8 and a multiply row with bit 22 set. -/
theorem witness_fatalPatterns :
    (0xE1C100D0#32 &&& 0x0E1000F0#32 = 0x000000D0#32 ∧ 0xE00100F0#32 &&& 0x0E1000F0#32 = 0x000000F0#32) ∧
    ([0xE1000190#32, 0xE0400090#32, 0xE1B00090#32].all fun w => decide (w &&& 0x0E0000F0#32 = 0x00000090#32 ∧
      w &&& 0x0FC00000#32 ≠ 0x00000000#32 ∧ w &&& 0x0F800000#32 ≠ 0x00800000#32 ∧ w &&& 0x0FB00FF0#32 ≠ 0x01000090#32)) ∧
    0xEDFFFFFF#32 &&& 0x0E000000#32 = 0x0C000000#32 ∧ 0xEEFFFFFF#32 &&& 0x0F000000#32 = 0x0E000000#32 ∧
    0xEFFF#16 &&& 0xF800#16 = 0xE800#16 ∧
    ([0xB100#16, 0xB3FF#16, 0xB600#16, 0xB800#16, 0xBFFF#16].all fun h => decide (h &&& 0xF000#16 = 0xB000#16 ∧
      h &&& 0xFF00#16 ≠ 0xB000#16 ∧ h &&& 0xF600#16 ≠ 0xB400#16)) := by
  decide +kernel

theorem witness_fatalWords : sysArm.thumb = false ∧ sysArm.condPass .al = true ∧ sysThumb.thumb = true ∧
    { sysArm with fatal := some (.unimplemented 0#32) }.resetLine = false ∧
    (let s := setupArm 0xE1C100D0 0x1F#32 0 [] []
     s.Running ∧ (nextState (exec s.popReset.currentInstr s.popReset.fetched)).map (fun t => t.fatal) =
       some (some (.unimplemented 0xE1C100D0#32))) :=
  ⟨by decide +kernel, by decide +kernel, by decide +kernel, rfl, ⟨⟨rfl, rfl⟩, rfl, rfl, by decide +kernel⟩, by decide +kernel⟩

theorem witness_thumbRows :
    (Instr.thumbRor 1#3 0#3, shiftReg .ror (sysThumb.x 0#4) (lane (sysThumb.x 1#4) 0) sysThumb.flagC, 2) ∈
      thumbShiftRows sysThumb 0#5 1#3 0#3 ∧
    (Instr.thumbMovHi 15#4 15#4, (15#4 : Reg), sysThumb.x 15#4) ∈ thumbAddressRows sysThumb 15#4 15#4 0#3 255#8 127#7 ∧
    (Instr.thumbLdshReg 2#3 1#3 1#3, LoadKind.signedHalf, sysThumb.x 1#4 + sysThumb.x 2#4) ∈
      thumbLoadRows sysThumb 2#3 1#3 1#3 31#5 255#8 :=
  ⟨by simp [thumbShiftRows]; rfl, by simp [thumbAddressRows], by simp [thumbLoadRows]; rfl⟩

theorem witness_thumbStores : StoreReady sysThumb (sysThumb.x 2#4 + 0#32) .word ∧
    (Instr.thumbStrImm 0#5 2#3 1#3, Width.word, sysThumb.x (lo 2#3) + BitVec.ofNat 32 (4 * (0#5).toNat)) ∈
      thumbStoreRows sysThumb 0#3 2#3 1#3 0#5 255#8 :=
  ⟨⟨rfl, by decide +kernel, by decide +kernel⟩, by simp [thumbStoreRows]⟩

theorem witness_push : sysThumb.bus.refusal = none ∧ sysThumb.bus.mem.wf ∧
    allPlain (sysThumb.x 13#4 - BitVec.ofNat 32 (4 * 9)) 9 ∧
    (listedBelow 8 ((0xFF#8).setWidth 16) ++ [14#4]).length = 9 := by
  unfold allPlain; decide +kernel

theorem witness_pop : noEeprom sysThumb (sysThumb.x 13#4) ((listedBelow 8 ((0xFF#8).setWidth 16)).length + 1) := by
  unfold noEeprom; decide +kernel

theorem witness_multiple : sysThumb.bus.refusal = none ∧ sysThumb.bus.mem.wf ∧
    allPlain (sysThumb.x (lo 1#3)) (listedBelow 8 ((0x82#8).setWidth 16)).length ∧
    noEeprom sysThumb (sysThumb.x (lo 2#3)) (listedBelow 8 ((0xFF#8).setWidth 16)).length := by
  unfold allPlain noEeprom; decide +kernel

theorem witness_thumbBranches : sysThumb.condPass .al = true ∧
    (let s := { sysThumb with cpu := { sysThumb.cpu with regs := { sysThumb.cpu.regs with
        r15 := 0x08000006#32, r14usr := 0x08000004#32 } } }
     s.thumb = true ∧ s.r15 = 0x08000006#32 ∧ s.x 14#4 = 0x08000004#32) ∧
    (let t := { sysThumb with cpu := { sysThumb.cpu with regs := { sysThumb.cpu.regs with r14usr := 0x08000005#32 } } }
     sysThumb.x 14#4 ≠ t.x 14#4 ∧ t.x 14#4 = (0x08000006#32 - 2#32) ||| 1#32) := by
  decide +kernel

theorem witness_loadRotation : readRaw sysArm.bus sysArm.r15 0x03000000#32 .word = 0xDEADBEEF#32 := by decide +kernel

/-- RAM, the last halfword of a ROM image below a window of one byte, and the last word of the BIOS. -/
theorem witness_littleEndian :
    ((∀ k, k < 4 → eepromWindow sysArm.bus (Width.word.align 0x0203FFFF#32 + BitVec.ofNat 32 k) false = false) ∧
      regionOf 0x0203FFFF#32 = .ewram) ∧
    (let b := { sysArm.bus with
        eeprom := { sysArm.bus.eeprom with used := true }
        params := { sysArm.bus.params with romSize := 0x100, eepromWindow := .ranges [(0x08000100#32, 0x08000100#32)] } }
     (∀ k, k < 2 → eepromWindow b (Width.half.align 0x080000FF#32 + BitVec.ofNat 32 k) false = false) ∧
     regionOf 0x080000FF#32 = .rom ∧ romIndex (Width.half.align 0x080000FF#32) + Width.half.bytes ≤ b.params.romSize ∧
     eepromWindow b 0x08000100#32 false = true) ∧
    ((∀ k, k < 4 → eepromWindow sysArm.bus (Width.word.align 0x00003FFC#32 + BitVec.ofNat 32 k) false = false) ∧
      regionOf 0x00003FFC#32 = .bios) := by
  decide +kernel

theorem witness_storeLoad : sysArm.bus.mem.wf ∧ storesPlainly (Width.half.align 0x070003FF#32) .half = true ∧
    sysArm.bus.flash.used = false ∧ sysArm.bus.flash.idMode = false ∧ sysArm.bus.flash.guard ≠ 2 ∧
    sysArm.bus.flash.mode = .idle := by
  decide +kernel

/-- The last readable word and the first beyond it, from r15 inside and outside. -/
theorem witness_bios : regionOf 0x00003FFC#32 = .bios ∧ (Width.word.align 0x00003FFC#32).toNat < 0x4000 ∧
    (0x3FFF#32).toNat < 0x4000 ∧ regionOf 0x00004000#32 = .bios ∧ ¬ (Width.word.align 0x00004000#32).toNat < 0x4000 ∧
    ¬ (0x4000#32).toNat < 0x4000 ∧ Width.half ≠ .byte := by
  decide +kernel

theorem witness_dmaEdge : (0x94#8).extractLsb' 4 2 ≠ 0#2 ∧ (sysArm.bus.io.dma.get 3).cntH.getLsbD 15 = false ∧
    (0x94#8).getLsbD 7 = true ∧ (0x14#8).getLsbD 7 = false ∧ (fifoBus.io.dma.get 1).cntH.getLsbD 15 = true := by
  decide +kernel

/-- TIMING 0, the last two words below the I/O file; and a copy of the whole of OAM. -/
theorem witness_dmaRun : (0x84#8).extractLsb' 4 2 = 0#2 ∧ (0x84#8).getLsbD 7 = true ∧
    (∀ k, k < 2 → regionOf (BitVec.ofNat 32 (0x03FFFFFB / 4 * 4) +
      BitVec.ofInt 32 ((k : Nat) * signedStep (0#2) 4)) ≠ .io) ∧
    sysArm.bus.mem.wf ∧ (sysArm.bus.io.dma.get 0).cntH.getLsbD 15 = false ∧ 0 < 0x100 := by
  decide +kernel

theorem witness_dmaUnits : let d := fifoBus.io.dma.get 1
    (∀ k, k < 1 → regionOf ({ d with dst := 0x02000000#32 }.dst + BitVec.ofInt 32 ((k : Nat) * (-4 : Int))) ≠ .io) ∧
    (∀ k, k < 2 → regionOf (0x05000000#32 + BitVec.ofInt 32 ((k : Nat) * (4 : Int))) ≠ .io) := by
  decide +kernel

/-- Repeating with and without destination reload, and not repeating. -/
theorem witness_dmaCompletion : (0xF260#16).getLsbD 9 = true ∧ (0xF260#16).extractLsb' 5 2 = 3#2 ∧
    (0xF200#16).extractLsb' 5 2 ≠ 3#2 ∧ (0xC400#16).getLsbD 9 = false ∧ (0xC200#16).extractLsb' 12 2 = 0#2 ∧
    (0 : Fin 4) ≠ 1 := by
  decide

/-- Timer 0 that clocks both FIFOs, at an overflow (SOUNDCNT_H = 0). -/
theorem test_timer_fifo_overflow :
    let b := { fifoBus with
      io := { fifoBus.io with fifoB := 3, timer := fifoBus.io.timer.set 0 ⟨0xFFF0#16, 0xFFFE, 0xC0#8, 0⟩ } }
    let p := timerStep 0 3 0 (b, 0)
    p.2 = 1 ∧ p.1.io.timer.get 0 = ⟨0xFFF0#16, 0xFFF1, 0xC0#8, 0⟩ ∧ p.1.io.irf = 8#16 ∧ p.1.io.fifoA = 31 ∧
    p.1.io.fifoB = 2 ∧ (p.1.io.dma.get 1).src = 0x02000010#32 := by
  decide +kernel

/-- Timers 0, 1 and 3 that clock no FIFO, disabled and enabled. -/
theorem witness_timerBatch :
    (let b := { timerBus ⟨0xFFF0#16, 0xFFFF, 0xC0#8, 0⟩ Timer.reset Timer.reset with
        io := { (timerBus ⟨0xFFF0#16, 0xFFFF, 0xC0#8, 0⟩ Timer.reset Timer.reset).io with soundcntH := 0x4400#16 } }
     ((0 : Fin 4).val ≤ 1 → (b.io.soundcntH.getLsbD 10).toNat ≠ (0 : Fin 4).val ∧
       (b.io.soundcntH.getLsbD 14).toNat ≠ (0 : Fin 4).val) ∧ (b.io.timer.get 0).control.getLsbD 7 = true) ∧
    ((1 : Fin 4).val ≤ 1 → (sysArm.bus.io.soundcntH.getLsbD 10).toNat ≠ (1 : Fin 4).val ∧
      (sysArm.bus.io.soundcntH.getLsbD 14).toNat ≠ (1 : Fin 4).val) ∧
    (sysArm.bus.io.timer.get 1).control.getLsbD 7 = false ∧ ¬ (3 : Fin 4).val ≤ 1 := by
  decide +kernel

theorem witness_fifo : (fifoBus.io.soundcntH.getLsbD 10).toNat = (0 : Fin 4).val ∧
    ((fifoBus.io.dma.get 1).cntH.getLsbD 15 = true ∧ (fifoBus.io.dma.get 1).cntH.extractLsb' 12 2 = 3#2) ∧
    fifoBus.io.fifoA - 1 ≤ 16 ∧ ¬ (sysArm.bus.io.dma.get 1).cntH.getLsbD 15 = true := by
  decide +kernel

/-- FIFO B at the boundary of 16 bytes, above it, and clocked by the other timer. -/
theorem witness_fifoB : (fifoBusB.io.soundcntH.getLsbD 14).toNat = (1 : Fin 4).val ∧
    (fifoBusB.io.soundcntH.getLsbD 14).toNat ≠ (0 : Fin 4).val ∧
    ((fifoBusB.io.dma.get 2).cntH.getLsbD 15 = true ∧ (fifoBusB.io.dma.get 2).cntH.extractLsb' 12 2 = 3#2) ∧
    fifoBusB.io.fifoB - 1 ≤ 16 ∧ ¬ (18 - 1 ≤ 16) ∧ (fifoBusB.io.soundcntH.getLsbD 10).toNat ≠ (1 : Fin 4).val := by
  decide +kernel

/-- FIQ before IRQ, IRQ, neither; an executed step and a step that executes nothing. -/
theorem witness_interrupts :
    ({ sysArm with inputs := ⟨[], [true], []⟩ }.inputs.fiq.headD false = true ∧ sysArm.flagF = false) ∧
    ((pending sysArm).flagI = false ∧ (pending sysArm).bus.io.ime = true ∧
      (pending sysArm).bus.io.ie &&& (pending sysArm).bus.io.irf &&& 0x3FFF#16 ≠ 0#16) ∧
    (nextState (exec sysArm.currentInstr sysArm.fetched)).map (fun t => t.fatal) = some none ∧
    State.reset.resetLine = false ∧ State.reset.inBudget = false ∧ (nextState (step State.reset)).isSome = true := by
  decide +kernel

theorem witness_halt : let s := { sysArm with bus := { sysArm.bus with run := .stop } }
    s.Safe ∧ s.resetLine = false ∧ s.inBudget = true ∧ s.bus.run ≠ .run ∧
    s.bus.io.ie &&& s.bus.io.irf &&& 0x3FFF#16 = 0#16 ∧
    (pending s).bus.io.ie &&& (pending s).bus.io.irf &&& 0x3FFF#16 ≠ 0#16 :=
  ⟨⟨rfl, rfl⟩, rfl, by decide +kernel, by decide +kernel, by decide +kernel, by decide +kernel⟩

/-- The first line of a frame, and its last line at the end of its budget. -/
theorem witness_scanline : (State.reset.Safe ∧ State.reset.seq = .lineStart ∧ State.reset.bus.io.vcount ≠ 160) ∧
    (let s := { State.reset with seq := .hBlank, budgetPos := 226, bus := { State.reset.bus with
        io := { Io.reset with vcount := 227 } } }
     s.Safe ∧ s.resetLine = false ∧ s.seq = .hBlank ∧ 226 ≤ s.budgetPos ∧ s.bus.io.vcount + 1 = 228) :=
  ⟨⟨⟨rfl, rfl⟩, rfl, by decide +kernel⟩, ⟨rfl, rfl⟩, rfl, rfl, le_refl _, rfl⟩

/-- The start of line 160 with the V-blank and V-count interrupts enabled: the flags and the interrupts raised. -/
theorem witness_vblank : let io := { Io.reset with vcount := 160, dispstat := 0xA02A#16 }
    (∀ k, k < 16 → (0xA02D#16).getLsbD k =
      if k = 0 then true else if k = 1 then false else if k = 2 then decide (io.vcount = (io.dispstat.extractLsb' 8 8).toNat)
      else io.dispstat.getLsbD k) ∧
    (∀ k, k < 16 → (0x0005#16).getLsbD k = (io.irf.getLsbD k ||
      (decide (k = 2) && decide (io.vcount = (io.dispstat.extractLsb' 8 8).toNat) && io.dispstat.getLsbD 5) ||
      (decide (k = 0) && decide (io.vcount = 160) && io.dispstat.getLsbD 3))) ∧
    (dmaTrigger 1#2 0 { State.reset.bus with io := { io with dispstat := 0xA02D#16, irf := 5#16 } }).refusal = none := by
  decide +kernel

/-- The start of line 160 refused for what R506 leaves open. -/
theorem witness_vblank_refused : let b := selfBus 0x1040#16 0x9040#16
    let s := { State.reset with bus := b }
    s.Safe ∧ s.resetLine = false ∧ s.seq = .lineStart ∧
    (dmaTrigger 1#2 s.r15 { b with io := { b.io with dispstat := 1#16 } }).refusal = some (.dmaReentry 0) :=
  ⟨⟨rfl, rfl⟩, rfl, rfl, by decide +kernel⟩

/-- The end of the H-draw budget, on the last line with H-blank transfers and the first without. -/
theorem witness_drawEnd :
    (let s := { State.reset with seq := .hDraw, budgetPos := 1006 }
     s.Safe ∧ s.resetLine = false ∧ s.seq = .hDraw ∧ 1006 ≤ s.budgetPos) ∧ 159 < 160 ∧ ¬ 160 < 160 ∧
    (dmaTrigger 2#2 0 (selfBus 0x1040#16 0x9040#16)).refusal = none ∧
    (dmaTrigger 2#2 0 (selfBus 0x2040#16 0xA040#16)).refusal = some (.dmaReentry 0) ∧
    (∀ k, k < 16 → (0x0012#16).getLsbD k = (decide (k = 1) || (0x0010#16).getLsbD k)) ∧
    (∀ k, k < 16 → (0x0002#16).getLsbD k = ((0#16).getLsbD k || (decide (k = 1) && (0x0010#16).getLsbD 4))) :=
  ⟨⟨⟨rfl, rfl⟩, rfl, rfl, le_refl _⟩, by decide, by decide, by decide +kernel, by decide +kernel, by decide, by decide⟩

/-- Idle, a pending write, a chip erase pending, a sector erase under a guard at the last sector, and a bank switch pending. -/
theorem witness_flash : sysArm.bus.flash.store.wf ∧ sysArm.bus.flash.mode ≠ .write ∧ sysArm.bus.flash.guard ≠ 2 ∧
    { sysArm.bus.flash with mode := .write }.mode = .write ∧ regionOf 0x0EFFFFFF#32 = .backup ∧
    (let f := flashCommand sysArm.bus.flash 0x80#8
     f.store.wf ∧ f.mode = .erase ∧ f.guard ≠ 2 ∧
     (let g := (f.writeByte 0x5555 0xAA#8).writeByte 0x2AAA 0x55#8
      g.store.wf ∧ g.mode = .erase ∧ g.guard = 2 ∧ 0xFFFF < 0x10000 ∧ 0xFFFF ≠ 0x5555)) ∧
    (let f := flashCommand sysArm.bus.flash 0xB0#8
     f.mode = .bankSwitch ∧ f.guard ≠ 2) := by
  decide +kernel

/-- R160, 2.17: two halfword stores of the CPU after a channel-3 run of two units accumulate their bits and complete nothing;
the second unit of a run completes its request, of a length that is none, and restarts the index. -/
theorem test_eeprom_bits_of_the_cpu :
    let b := { State.reset.bus with eeprom := { State.reset.bus.eeprom with reqLen := some 2 } }
    let t := stores [(0x0D000000#32, .half, 1#32), (0x0D000000#32, .half, 1#32)] b
    let unit : Bus → Bus := writeWith .dma (fun _ b => b) 0 0x0D000000#32 .half 1#32
    t.eeprom.idx = 2 ∧ t.eeprom.buf = 3#256 ∧ t.eeprom.used = true ∧ (unit (unit b)).eeprom.idx = 0 := by
  decide +kernel

/-- A store to the window by the CPU at the last place of `ee_buf` and beyond it, and a channel whose destination is there. -/
theorem witness_eepromBit : eepromWindow sysArm.bus (Width.half.align 0x0D000001#32) true = true ∧
    { sysArm.bus.eeprom with idx := 255 }.idx < 256 ∧ ¬ { sysArm.bus.eeprom with idx := 256 }.idx < 256 ∧
    (let b := updDma 3 (fun d => { d with dst := 0x0D000000#32 }) sysArm.bus
     eepromWindow b ((b.io.dma.get 3).width.align (b.io.dma.get 3).dst) true = true) := by
  decide +kernel

/-- A read request of 9 bits, a write request of 81, and a request of 9 bits with the mode of a write. -/
theorem witness_eepromRequest :
    let e (n : Nat) := { sysArm.bus.eeprom with reqLen := some n }
    let rd := [true, true] ++ List.replicate 7 false
    let wr := [true, false] ++ List.replicate 79 true
    let bad := [true, false] ++ List.replicate 7 false
    (e 9).store.wf ∧ (e 9).idx = 0 ∧ (e 9).reqLen = some rd.length ∧ rd.take 2 = [true, true] ∧ rd.length = 2 + 6 + 1 ∧
    (e 81).reqLen = some wr.length ∧ wr.take 2 = [true, false] ∧ wr.length = 2 + 14 + 64 + 1 ∧ wr.length ≤ 256 ∧
    (e 9).reqLen = some bad.length ∧ bad.take 2 ≠ [true, true] ∧ bad.length ≠ 2 + 6 + 64 + 1 ∧
    bad.length ≠ 2 + 14 + 64 + 1 := by
  decide +kernel

theorem witness_eeprom : sysArm.bus.eeprom.readIdx = 0 ∧
    (let b := { sysArm.bus with eeprom := { sysArm.bus.eeprom with used := true } }
     eepromWindow b (Width.half.align 0x0D000001#32) false = true) := by
  decide +kernel

theorem witness_user : usrArm.cpu.cpsr.extractLsb' 0 5 = 0x10#5 ∧
    (∃ t, exec (.armMsrImm .al false 1#4 0#4 0xD3#8) usrArm = .next t) ∧
    raisesException (.armMsrImm .al false 1#4 0#4 0xD3#8) = false :=
  ⟨by decide +kernel, next_of_isSome (by decide +kernel), rfl⟩

theorem witness_flags : mayWriteFlags (.armLdr .al ⟨true, true, false⟩ 1#4 0#4 (.imm 0#12)) = false ∧
    ∃ t, exec (.armLdr .al ⟨true, true, false⟩ 1#4 0#4 (.imm 0#12)) sysArm = .next t :=
  ⟨rfl, next_of_isSome (by decide +kernel)⟩

end Sys2Proof.Tests
end

section
/-! What `exec` can do, said once: every instruction answers the end of a chain of a few kinds of update, and the kinds
that matter to flags, status and memory happen only for the instructions that the tables of `Safety.lean` name. -/

namespace Sys2Proof.Machine

/-- `t` is reached from `s` by updates that the instruction `i` may make. -/
inductive Chain (i : Instr) (s : State) : State → Prop
  | refl : Chain i s s
  | setX {t : State} (h : Chain i s t) (r : Reg) (v : Word) : Chain i s (t.setX r v)
  | setXu {t : State} (h : Chain i s t) (r : Reg) (v : Word) : Chain i s (t.setXu r v)
  | writePc {t : State} (h : Chain i s t) (v : Word) : Chain i s (t.writePc v)
  | tally {t : State} (h : Chain i s t) (k : Nat) : Chain i s (t.tally k)
  | afterRead {t : State} (h : Chain i s t) (a : Word) (w : Width) : Chain i s (t.afterRead a w)
  | memWrite {t : State} (h : Chain i s t) (hi : storesMemory i = true) (a : Word) (w : Width) (v : Word) :
      Chain i s (t.memWrite a w v)
  | setNZCV {t : State} (h : Chain i s t) (hi : mayWriteFlags i = true) (n z c v : Bool) : Chain i s (t.setNZCV n z c v)
  | branchExchange {t : State} (h : Chain i s t) (v : Word) : Chain i s (t.branchExchange v)
  | restoreThenPc {t : State} (h : Chain i s t) (hi : mayWriteFlags i = true) (hl : t.restoreLegal = true) (v : Word) :
      Chain i s (t.restoreThenPc v)
  | enter {t : State} (h : Chain i s t) (hi : raisesException i = true) (e : Exception) : Chain i s (t.enter e)
  | moveToCpsr {t : State} (h : Chain i s t) (hi : mayWriteFlags i = true) (fm : BitVec 4) (v : Word)
      (hl : legalMode (mergeBits (t.cpsrMask fm) t.cpu.cpsr v) = true) :
      Chain i s (t.setCpsr (mergeBits (t.cpsrMask fm) t.cpu.cpsr v))
  | moveToSpsr {t : State} (h : Chain i s t) (ht : (t.cpu.spsr.get t.mode).isSome = true) (v : Word) :
      Chain i s { t with cpu := { t.cpu with spsr := t.cpu.spsr.set t.mode v } }
  | fatal {t : State} (h : Chain i s t) (f : Fault) : Chain i s { t with fatal := some f }

/-- The answer of an instruction: the end of a chain, or for one that stores the end of a chain unless a store was refused. -/
inductive Answers (i : Instr) (s : State) : Result → Prop
  | next {t : State} (h : Chain i s t) : Answers i s (.next t)
  | finish {t : State} (hi : storesMemory i = true) (h : Chain i s t) : Answers i s (finish t)

variable {i : Instr} {s t : State}

/-! ## What a block load leaves of the status registers -/

theorem restoreLegal_congr (hc : t.cpu.cpsr = s.cpu.cpsr) (hp : t.cpu.spsr = s.cpu.spsr) :
    t.restoreLegal = s.restoreLegal := by
  unfold State.restoreLegal State.mode
  rw [hc, hp]

@[simp] theorem State.loadRegs_cpsr (s : State) (user : Bool) (l : List Reg) (a : Word) :
    (s.loadRegs user l a).cpu.cpsr = s.cpu.cpsr := by
  induction l generalizing s a with
  | nil => rfl
  | cons r rest ih => rw [State.loadRegs, ih]; split <;> simp

@[simp] theorem State.loadRegs_spsr (s : State) (user : Bool) (l : List Reg) (a : Word) :
    (s.loadRegs user l a).cpu.spsr = s.cpu.spsr := by
  induction l generalizing s a with
  | nil => rfl
  | cons r rest ih => rw [State.loadRegs, ih]; split <;> simp

@[simp] theorem State.ldmLow_cpsr (s : State) (m : BlockMode) (rn : Reg) (list : BitVec 16) :
    (s.ldmLow m rn list).cpu.cpsr = s.cpu.cpsr := by
  rw [State.ldmLow, State.loadRegs_cpsr]; split <;> simp

@[simp] theorem State.ldmLow_spsr (s : State) (m : BlockMode) (rn : Reg) (list : BitVec 16) :
    (s.ldmLow m rn list).cpu.spsr = s.cpu.spsr := by
  rw [State.ldmLow, State.loadRegs_spsr]; split <;> simp

/-! ## Operations that are chains -/

theorem Chain.setNZ (h : Chain i s t) (hi : mayWriteFlags i = true) (r : Word) : Chain i s (t.setNZ r) :=
  h.setNZCV hi _ _ _ _

theorem Chain.setFlagsIf (h : Chain i s t) {sb : Bool} (hi : sb = true → mayWriteFlags i = true) (r : AluOut) :
    Chain i s (t.setFlagsIf sb r) := by
  cases sb
  · exact h
  · exact h.setNZCV (hi rfl) _ _ _ _

theorem Chain.writeBack (h : Chain i s t) (ix : Indexing) (rn : Reg) (v : Word) : Chain i s (t.writeBack ix rn v) := by
  unfold State.writeBack
  split
  · exact h.setX rn v
  · exact h

theorem Chain.writeBase (h : Chain i s t) (wb : Option (Reg × Word)) : Chain i s (t.writeBase wb) := by
  cases wb with
  | none => exact h
  | some p => exact h.setX p.1 p.2

theorem Chain.mulWrite (h : Chain i s t) {sb : Bool} (hi : sb = true → mayWriteFlags i = true) (rd : Reg) (r : Word) :
    Chain i s (t.mulWrite sb rd r) := by
  cases sb
  · exact h.setX rd r
  · exact (h.setX rd r).setNZ (hi rfl) r

theorem Chain.mulLongWrite (h : Chain i s t) {sb : Bool} (hi : sb = true → mayWriteFlags i = true) (rdHi rdLo : Reg)
    (p : BitVec 64) : Chain i s (t.mulLongWrite sb rdHi rdLo p) := by
  cases sb
  · exact (h.setX rdLo _).setX rdHi _
  · exact ((h.setX rdLo _).setX rdHi _).setNZCV (hi rfl) _ _ _ _

theorem Chain.loadRegs (h : Chain i s t) (user : Bool) (l : List Reg) (a : Word) : Chain i s (t.loadRegs user l a) := by
  induction l generalizing t a with
  | nil => exact h
  | cons r rest ih =>
    refine ih ?_ _
    split
    · exact (h.afterRead a .word).setXu r _
    · exact (h.afterRead a .word).setX r _

theorem Chain.storeRegs (h : Chain i s t) (hi : storesMemory i = true) (user : Bool) (wb : Option (Reg × Word))
    (l : List Reg) (a : Word) : Chain i s (t.storeRegs user wb l a) := by
  induction l generalizing t wb a with
  | nil => exact h
  | cons r rest ih => exact ih ((h.memWrite hi a .word _).writeBase wb) none _

theorem Chain.ldmLow (h : Chain i s t) (m : BlockMode) (rn : Reg) (list : BitVec 16) : Chain i s (t.ldmLow m rn list) := by
  refine Chain.loadRegs ?_ _ _ _
  split
  · exact h.setX rn _
  · exact h

theorem Chain.stm (h : Chain i s t) (hi : storesMemory i = true) (m : BlockMode) (rn : Reg) (list : BitVec 16) :
    Chain i s (t.stm m rn list) := by
  unfold State.stm
  dsimp only
  split
  · exact h.writeBase _
  · exact h.storeRegs hi _ _ _ _

theorem Chain.pop (h : Chain i s t) (pc : Bool) (list : BitVec 8) : Chain i s (t.pop pc list) := by
  cases pc
  · exact (h.loadRegs false _ _).setX 13#4 _
  · exact (((h.loadRegs _ _ _).afterRead _ _).setX _ _).writePc _

theorem Chain.stmia (h : Chain i s t) (hi : storesMemory i = true) (rb : LoReg) (list : BitVec 8) :
    Chain i s (t.stmia rb list) := by
  unfold State.stmia
  split
  · exact h.setX _ _
  · exact h.storeRegs hi _ _ _ _

/-! ## The skeletons that several instructions share -/

theorem conditional_answers (c : Cond) {k : State → Result} (h : Answers i s (k s)) : Answers i s (conditional c s k) := by
  unfold conditional
  split
  · exact h
  · exact .next (Chain.refl.tally 1)

theorem fatal_answers (f : Fault) : Answers i s (Machine.fatal f s) :=
  .next (Chain.refl.fatal f)

theorem dataProc_answers {sb : Bool} (hi : sb = true → mayWriteFlags i = true) (op : AluOp) (c : Cond) (rn rd : Reg)
    (o : Operand2) : Answers i s (dataProc op c sb rn rd o s) := by
  refine conditional_answers c ?_
  dsimp only
  split
  · split
    case isTrue hs =>
      split
      case isTrue hl => exact .next ((Chain.refl.restoreThenPc (hi hs) hl _).tally _)
      case isFalse => exact fatal_answers _
    case isFalse => exact .next ((Chain.refl.writePc _).tally _)
  · exact .next (((Chain.refl.setX rd _).setFlagsIf hi _).tally _)

theorem dataTest_answers (hi : mayWriteFlags i = true) (op : AluOp) (c : Cond) (rn : Reg) (o : Operand2) :
    Answers i s (dataTest op c rn o s) := by
  refine conditional_answers c ?_
  exact .next ((Chain.refl.setFlagsIf (fun _ => hi) _).tally _)

theorem singleLoad_answers (k : LoadKind) (c : Cond) (ix : Indexing) (rn rd : Reg) (off : Word) :
    Answers i s (singleLoad k c ix rn rd off s) := by
  refine conditional_answers c ?_
  exact .next ((((Chain.refl.afterRead _ _).writeBack ix rn _).setX rd _).tally _)

theorem singleStore_answers (hi : storesMemory i = true) (w : Width) (c : Cond) (ix : Indexing) (rn rd : Reg) (off : Word) :
    Answers i s (singleStore w c ix rn rd off s) := by
  refine conditional_answers c ?_
  exact .finish hi (((Chain.refl.memWrite hi _ w _).writeBack ix rn _).tally 2)

/-- SWP and SWPB, executed or not (R345, R346). -/
theorem swap_answers (hi : storesMemory i = true) (w : Width) (rn rd rm : Reg) :
    Answers i s (if s.bus.params.swpImplemented then finish ((s.swap w rn rd rm).tally 4) else fatalUnimplemented s) := by
  split
  · exact .finish hi ((((Chain.refl.afterRead _ w).memWrite hi _ w _).setX rd _).tally 4)
  · exact fatal_answers _

theorem moveToPsr_answers (hi : mayWriteFlags i = true) (p : Bool) (fm : BitVec 4) (v : Word) :
    Answers i s (moveToPsr p fm v s) := by
  unfold moveToPsr
  cases p
  · rw [if_neg Bool.false_ne_true]
    dsimp only
    split
    case isTrue hl => exact .next ((Chain.refl.moveToCpsr hi fm v hl).tally 1)
    case isFalse => exact fatal_answers _
  · rw [if_pos rfl]
    split
    next old ho => exact .next ((Chain.refl.moveToSpsr (by rw [ho]; rfl) _).tally 1)
    next => exact fatal_answers _

theorem thumbWrite_answers (hi : mayWriteFlags i = true) (rd : LoReg) (r : AluOut) (k : Nat) :
    Answers i s (thumbWrite rd r k s) :=
  .next (((Chain.refl.setX _ _).setNZCV hi _ _ _ _).tally k)

theorem thumbTest_answers (hi : mayWriteFlags i = true) (r : AluOut) : Answers i s (thumbTest r s) :=
  .next ((Chain.refl.setNZCV hi _ _ _ _).tally 1)

theorem thumbLoad_answers (k : LoadKind) (rd : LoReg) (a : Word) : Answers i s (thumbLoad k rd a s) :=
  .next (((Chain.refl.afterRead _ _).setX _ _).tally 3)

theorem thumbStore_answers (hi : storesMemory i = true) (w : Width) (rd : LoReg) (a : Word) :
    Answers i s (thumbStore w rd a s) :=
  .finish hi ((Chain.refl.memWrite hi a w _).tally 2)

/-! ## The instructions that share no skeleton -/

theorem execArmLdm_answers (c : Cond) (m : BlockMode) (rn : Reg) (list : BitVec 16) :
    Answers (.armLdm c m rn list) s (execArmLdm c m rn list s) := by
  refine conditional_answers c ?_
  split
  case isTrue h15 =>
    split
    case isTrue => exact fatal_answers _
    case isFalse hl =>
      have hl' : m.psr = true → s.restoreLegal = true := by simpa using hl
      refine .next (Chain.tally ?_ _)
      unfold State.ldmPc
      dsimp only
      split
      case isTrue hp =>
        refine ((Chain.refl.ldmLow m rn list).afterRead _ _).restoreThenPc ?_ ?_ _
        · simp [mayWriteFlags, hp, h15]
        · rw [← hl' hp]; exact restoreLegal_congr (by simp) (by simp)
      case isFalse => exact ((Chain.refl.ldmLow m rn list).afterRead _ _).writePc _
  case isFalse => exact .next ((Chain.refl.ldmLow m rn list).tally _)

theorem execArmMrs_answers (c : Cond) (p : Bool) (rd : Reg) : Answers i s (execArmMrs c p rd s) := by
  refine conditional_answers c ?_
  split
  · split
    · exact .next ((Chain.refl.setX rd _).tally 1)
    · exact fatal_answers _
  · exact .next ((Chain.refl.setX rd _).tally 1)

/-! ## Every instruction -/

/-- Every instruction answers the end of a chain of its own updates. -/
theorem exec_answers (i : Instr) (s : State) : Answers i s (exec i s) := by
  cases i
  case armBx c rn =>
    rw [exec]
    refine conditional_answers c ?_
    exact .next ((Chain.refl.branchExchange _).tally 3)
  case armLdm c m rn list => exact execArmLdm_answers c m rn list
  case armStm c m rn list =>
    rw [exec]
    refine conditional_answers c ?_
    exact .finish rfl ((Chain.refl.stm rfl m rn list).tally _)
  case armB c off =>
    rw [exec]
    refine conditional_answers c ?_
    exact .next ((Chain.refl.writePc _).tally 3)
  case armBl c off =>
    rw [exec]
    refine conditional_answers c ?_
    exact .next (((Chain.refl.setX _ _).writePc _).tally 3)
  case armSwi c _ =>
    rw [exec]
    refine conditional_answers c ?_
    exact .next ((Chain.refl.enter rfl _).tally 3)
  case armUnd c =>
    rw [exec]
    refine conditional_answers c ?_
    exact .next ((Chain.refl.enter rfl _).tally 3)
  case armLdr | armLdrb | armLdrh | armLdrsb | armLdrsh => exact singleLoad_answers _ _ _ _ _ _
  case armStr | armStrb | armStrh => exact singleStore_answers rfl _ _ _ _ _ _
  case armSwp c rn rd rm | armSwpb c rn rd rm =>
    rw [exec]
    refine conditional_answers c ?_
    exact swap_answers rfl _ rn rd rm
  case armMul c sb rd rs rm =>
    rw [exec]
    refine conditional_answers c ?_
    exact .next ((Chain.refl.mulWrite (fun h => h) rd _).tally _)
  case armMla c sb rd rn rs rm =>
    rw [exec]
    refine conditional_answers c ?_
    exact .next ((Chain.refl.mulWrite (fun h => h) rd _).tally _)
  case armUmull c sb hi lo rs rm | armUmlal c sb hi lo rs rm | armSmull c sb hi lo rs rm | armSmlal c sb hi lo rs rm =>
    rw [exec]
    refine conditional_answers c ?_
    exact .next ((Chain.refl.mulLongWrite (fun h => h) hi lo _).tally _)
  case armLdrdPosition c _ _ _ _ | armStrdPosition c _ _ _ _ =>
    rw [exec]
    refine conditional_answers c ?_
    exact fatal_answers _
  case armReservedSh00 c | armReservedPsr c | armNoClassCoprocTransfer c | armNoClassCoprocOperation c =>
    rw [exec]
    refine conditional_answers c ?_
    exact fatal_answers _
  case armMrs c p rd => exact execArmMrs_answers c p rd
  case armMsrReg c p fm rm =>
    rw [exec]
    refine conditional_answers c ?_
    exact moveToPsr_answers rfl p fm _
  case armMsrImm c p fm rot imm8 =>
    rw [exec]
    refine conditional_answers c ?_
    exact moveToPsr_answers rfl p fm _
  case armAnd | armEor | armSub | armRsb | armAdd | armAdc | armSbc | armRsc | armOrr | armMov | armBic | armMvn =>
    exact dataProc_answers (fun h => h) _ _ _ _ _
  case armTst | armTeq | armCmp | armCmn => exact dataTest_answers rfl _ _ _ _
  case thumbSwi => exact .next ((Chain.refl.enter rfl _).tally 3)
  case thumbB => exact .next ((Chain.refl.writePc _).tally 3)
  case thumbBcond c off =>
    rw [exec]
    refine conditional_answers c ?_
    exact .next ((Chain.refl.writePc _).tally 3)
  case thumbStmia rb list => exact .finish rfl ((Chain.refl.stmia rfl rb list).tally _)
  case thumbLdmia => exact .next (((Chain.refl.setX _ _).loadRegs _ _ _).tally _)
  case thumbBlFirst => exact .next ((Chain.refl.setX _ _).tally 1)
  case thumbBlSecond => exact .next (((Chain.refl.writePc _).setX _ _).tally 3)
  case thumbPush => exact .finish rfl (((Chain.refl.storeRegs rfl _ _ _ _).setX _ _).tally _)
  case thumbPop pc list => exact .next ((Chain.refl.pop pc list).tally _)
  case thumbAddSp | thumbSubSp | thumbAddRdPc | thumbAddRdSp | thumbAddHi | thumbMovHi =>
    exact .next ((Chain.refl.setX _ _).tally _)
  case thumbBx => exact .next ((Chain.refl.branchExchange _).tally 3)
  case thumbStrhImm | thumbStrSp | thumbStrImm | thumbStrbImm | thumbStrReg | thumbStrbReg | thumbStrhReg =>
    exact thumbStore_answers rfl _ _ _
  case thumbLdrhImm | thumbLdrSp | thumbLdrImm | thumbLdrbImm | thumbLdrReg | thumbLdrbReg | thumbLdsbReg | thumbLdrhReg
      | thumbLdshReg | thumbLdrPc =>
    exact thumbLoad_answers _ _ _
  case thumbCmpHi | thumbTst | thumbCmp | thumbCmn | thumbCmpImm => exact thumbTest_answers rfl _
  case thumbAnd | thumbEor | thumbLslReg | thumbLsrReg | thumbAsrReg | thumbAdc | thumbSbc | thumbRor | thumbNeg | thumbOrr
      | thumbMul | thumbBic | thumbMvn | thumbMovImm | thumbAddImm8 | thumbSubImm8 | thumbAddReg | thumbSubReg
      | thumbAddImm3 | thumbSubImm3 | thumbLslImm | thumbLsrImm | thumbAsrImm =>
    exact thumbWrite_answers rfl _ _ _
  case thumbNoClassE8 | thumbNoClassB0 => exact fatal_answers _

/-- An answer that is a next state is the end of a chain. -/
theorem Answers.chain {r : Result} (h : Answers i s r) (hr : r = .next t) : Chain i s t := by
  cases h with
  | next h => cases hr; exact h
  | @finish u _ h =>
    unfold Machine.finish at hr
    split at hr
    · cases hr
    · cases hr; exact h

/-- What an instruction leaves is the end of a chain of its own updates. -/
theorem exec_chain (h : exec i s = .next t) : Chain i s t :=
  (exec_answers i s).chain h

end Sys2Proof.Machine
end

section
/-! The invariant: after reset, through every update of an instruction, through the phases of a step, through the
sequencer's events (`10_state.md` R27, R29, R34, R60; `60_exceptions.md` R575-R579). -/

namespace Sys2Proof.Machine

variable {s t : State}

/-! ## Reset -/

theorem Bus.Ok.withRun {b : Bus} (h : b.Ok) (r : RunState) : Bus.Ok { b with run := r } :=
  ⟨h.mem, h.flash, h.eeprom, h.io, h.wait⟩

theorem Io.reset_ok : Io.reset.Ok where
  dispstat := rfl
  vcount := by decide
  soundcntH := rfl
  fifoA := by decide
  fifoB := by decide
  dma c := by fin_cases c <;> exact ⟨rfl, by decide, rfl, rfl⟩
  timer c := by fin_cases c <;> exact ⟨rfl, by decide⟩
  keyinput := rfl
  ie := rfl
  irf := rfl
  waitcnt := rfl
  other := Memory.nil_wf

theorem Eeprom.reset_ok : Eeprom.Ok ⟨[], 0, 0, 0, 0, 0, false, none, none⟩ :=
  ⟨Memory.nil_wf, by decide, by decide, by decide, by decide⟩

/-- The reset state meets the invariant, whatever the parameters. -/
theorem State.resetWith_inv (p : Params) (inputs : Inputs) : (State.resetWith p inputs).Inv where
  mode := show legalMode 0x000000D3#32 = true by decide
  pc := show alignPc (BitVec.getLsbD 0x000000D3#32 5) 0 = 0 by decide
  bus := ⟨Memory.nil_wf, Memory.nil_wf, Eeprom.reset_ok, Io.reset_ok, rfl⟩

/-! ## The updates of an instruction -/

/-- The invariant says nothing of what is neither CPSR, r15 nor behind the bus. -/
theorem State.Inv.congr (h : s.Inv) (hc : t.cpu.cpsr = s.cpu.cpsr) (hr : t.r15 = s.r15) (hb : t.bus.Ok) : t.Inv where
  mode := by rw [hc]; exact h.mode
  pc := by rw [hr, State.thumb, hc]; exact h.pc
  bus := hb

theorem State.Inv.writePc (h : s.Inv) (v : Word) : (s.writePc v).Inv :=
  ⟨h.mode, alignPc_idem _ _, h.bus⟩

theorem State.Inv.setPhys (h : s.Inv) {p : PhysReg} (hp : p ≠ .r15) (v : Word) : (s.setPhys p v).Inv :=
  h.congr rfl (Regs.r15_set_other _ hp _) h.bus

theorem State.Inv.setX (h : s.Inv) (r : Reg) (v : Word) : (s.setX r v).Inv := by
  by_cases hr : r = 15#4
  · subst hr; exact h.writePc v
  · rw [State.setX_of_ne s hr]; exact h.setPhys (phys_ne_r15 _ hr) v

theorem State.Inv.setXu (h : s.Inv) (r : Reg) (v : Word) : (s.setXu r v).Inv := by
  by_cases hr : r = 15#4
  · subst hr; exact h.writePc v
  · rw [State.setXu_of_ne s hr]; exact h.setPhys (phys_ne_r15 _ hr) v

/-- A status value with a legal mode and the same T. -/
theorem State.Inv.setCpsr (h : s.Inv) {v : Word} (hm : legalMode v = true) (ht : v.getLsbD 5 = s.thumb) :
    (s.setCpsr v).Inv :=
  ⟨hm, (congrArg (alignPc · s.r15) ht).trans h.pc, h.bus⟩

theorem State.Inv.setNZCV (h : s.Inv) (n z c v : Bool) : (s.setNZCV n z c v).Inv :=
  h.setCpsr (by rw [withFlags_legalMode]; exact h.mode) (withFlags_thumb _ _ _ _ _)

theorem State.Inv.branchExchange (h : s.Inv) (v : Word) : (s.branchExchange v).Inv :=
  ⟨(legalMode_setBit _ 5 _ (by decide)).trans h.mode, alignPc_idem _ _, h.bus⟩

theorem restoreCpsr_legalMode (hl : s.restoreLegal = true) (hm : legalMode s.cpu.cpsr = true) :
    legalMode s.restoreCpsr.cpu.cpsr = true := by
  unfold State.restoreLegal at hl
  unfold State.restoreCpsr
  cases hp : s.cpu.spsr.get s.mode with
  | none => exact hm
  | some v => simpa [hp] using hl

theorem State.Inv.restoreThenPc (h : s.Inv) (hl : s.restoreLegal = true) (v : Word) : (s.restoreThenPc v).Inv :=
  ⟨restoreCpsr_legalMode hl h.mode, alignPc_idem _ _, by simpa [State.restoreThenPc] using h.bus⟩

theorem State.Inv.enter (h : s.Inv) (e : Exception) : (s.enter e).Inv where
  mode := entryCpsr_legalMode _ _
  pc := by rw [State.enter_thumb, State.enter_r15]; cases e <;> rfl
  bus := h.bus

/-- A bit outside the mask is kept. -/
theorem getLsbD_mergeBits_of_clear {n : Nat} {mask : BitVec n} {k : Nat} (hk : k < n) (h : mask.getLsbD k = false)
    (old new : BitVec n) : (mergeBits mask old new).getLsbD k = old.getLsbD k := by
  rw [mergeBits, BitVec.getLsbD_or, BitVec.getLsbD_and, BitVec.getLsbD_and, BitVec.getLsbD_not, h]
  simp [hk]

/-- MSR never writes T (R311). -/
theorem moveToCpsr_thumb (s : State) (fm : BitVec 4) (v : Word) :
    (mergeBits (s.cpsrMask fm) s.cpu.cpsr v).getLsbD 5 = s.thumb :=
  getLsbD_mergeBits_of_clear (by decide) (by simp [State.cpsrMask]) _ _

/-- What an instruction leaves meets the invariant (R27, R31). -/
theorem Chain.inv {i : Instr} (h : Chain i s t) (hs : s.Inv) : t.Inv := by
  induction h with
  | refl => exact hs
  | setX _ r v ih => exact ih.setX r v
  | setXu _ r v ih => exact ih.setXu r v
  | writePc _ v ih => exact ih.writePc v
  | tally _ k ih => exact ih.congr rfl rfl ih.bus
  | afterRead _ a w ih => exact ih.congr rfl rfl (busOk_stable.afterRead a w _ ih.bus)
  | memWrite _ _ a w v ih => exact ih.congr rfl rfl (busOk_stable.busWrite _ a w v _ ih.bus)
  | setNZCV _ _ n z c v ih => exact ih.setNZCV n z c v
  | branchExchange _ v ih => exact ih.branchExchange v
  | restoreThenPc _ _ hl v ih => exact ih.restoreThenPc hl v
  | enter _ _ e ih => exact ih.enter e
  | moveToCpsr _ _ fm v hl ih => exact ih.setCpsr hl (moveToCpsr_thumb _ fm v)
  | moveToSpsr _ _ v ih => exact ih.congr rfl rfl ih.bus
  | fatal _ f ih => exact ih.congr rfl rfl ih.bus

/-! ## The phases of a step -/

theorem Bus.Ok.afterFetch {b : Bus} (h : b.Ok) (a : Word) (w : Width) : (Machine.afterFetch b a w).Ok := by
  have h' := busOk_stable.afterRead a w b h
  unfold Machine.afterFetch
  dsimp only
  split
  · exact ⟨h'.mem, h'.flash, h'.eeprom, h'.io, h'.wait⟩
  · exact h'

theorem State.Inv.fetchIntoLatch (h : s.Inv) : s.fetchIntoLatch.Inv :=
  ⟨h.mode, alignPc_next s.thumb s.r15 h.pc, h.bus.afterFetch _ _⟩

theorem State.Inv.fillLatch (h : s.Inv) : s.fillLatch.Inv := by
  unfold State.fillLatch
  split
  · exact h
  · exact h.fetchIntoLatch

theorem State.Inv.fetched (h : s.Inv) : s.fetched.Inv := by
  have h0 : s.clearTally.Inv := h.congr rfl rfl (busOk_stable.cost _ 0 h.bus)
  have h1 : s.clearTally.fillLatch.takeLatch.Inv := h0.fillLatch.congr rfl rfl h0.fillLatch.bus
  exact h1.fetchIntoLatch.congr rfl rfl h1.fetchIntoLatch.bus

theorem State.Inv.elapse (h : s.Inv) (k : Nat) : (s.elapse k).Inv :=
  h.congr rfl rfl (busOk_stable.timersAdvance _ k _ (busOk_stable.cost _ 0 h.bus))

theorem State.Inv.irqSample (h : s.Inv) : s.irqSample.Inv := by
  have hp : s.popFiq.Inv := h.congr rfl rfl h.bus
  unfold State.irqSample
  split
  · exact hp.enter _
  · exact hp

theorem State.Inv.retire (h : s.Inv) : s.retire.Inv := by
  unfold State.retire
  split
  · exact h
  · exact (h.elapse _).irqSample

theorem cpuStep_inv (h : s.Inv) (ht : cpuStep s = .next t) : t.Inv := by
  unfold cpuStep at ht
  split at ht
  next u hu => cases ht; exact ((exec_chain hu).inv h.fetched).retire
  all_goals cases ht

theorem haltedStep_inv (h : s.Inv) : (haltedStep s).Inv := by
  unfold haltedStep
  split
  · exact h.congr rfl rfl (h.bus.withRun .run)
  · exact h.elapse 1

theorem budgetStep_inv (h : s.Inv) (ht : budgetStep s = .next t) : t.Inv := by
  unfold budgetStep at ht
  split at ht
  · exact cpuStep_inv h ht
  · cases ht; exact haltedStep_inv h
  · cases ht; exact haltedStep_inv h

/-! ## The sequencer -/

/-- The sequencer writes none of the two DISPSTAT bits that read 0 (R177). -/
theorem Bus.Ok.setDispstat {b : Bus} (h : b.Ok) {k : Nat} (hk : (1#16 <<< k) &&& 0x00C0#16 = 0#16) (v : Bool) :
    (Machine.setDispstat k v b).Ok := by
  refine h.withIo { h.io with dispstat := ?_ } rfl
  dsimp only
  split
  · rw [BitVec.and_comm, BitVec.and_or_distrib_left, BitVec.and_comm, h.io.dispstat, BitVec.and_comm, hk]; rfl
  · rw [BitVec.and_assoc, BitVec.and_comm _ 0x00C0#16, ← BitVec.and_assoc, h.io.dispstat, BitVec.zero_and]

theorem Bus.Ok.setVcount {b : Bus} (h : b.Ok) {n : Nat} (hn : n < 228) : (Machine.setVcount n b).Ok :=
  h.withIo { h.io with vcount := hn } rfl

theorem Bus.Ok.raiseIfEnabled {b : Bus} (h : b.Ok) (enable : Nat) {k : Nat} (hk : k < 14) :
    (Machine.raiseIfEnabled enable k b).Ok := by
  unfold Machine.raiseIfEnabled
  split
  · exact h.raiseIrq hk
  · exact h

theorem Bus.Ok.lineMatch {b : Bus} (h : b.Ok) : (Machine.lineMatch b).Ok := by
  have h' := (h.setDispstat (k := 1) (by decide) false).setDispstat (k := 2) (by decide) false
  unfold Machine.lineMatch
  dsimp only
  split
  · exact (h'.setDispstat (by decide) true).raiseIfEnabled 5 (by decide)
  · exact h'

theorem Bus.Ok.lineVblank {b : Bus} (h : b.Ok) (r15 : Word) : (Machine.lineVblank r15 b).Ok := by
  unfold Machine.lineVblank
  split
  · exact busOk_stable.dmaTrigger _ _ _ ((h.setDispstat (by decide) true).raiseIfEnabled 3 (by decide))
  · exact h

theorem Bus.Ok.lineHblank {b : Bus} (h : b.Ok) (r15 : Word) : (Machine.lineHblank r15 b).Ok := by
  have h' : (if b.io.vcount < 160 then dmaTrigger 2#2 r15 b else b).Ok := by
    split
    · exact busOk_stable.dmaTrigger _ _ _ h
    · exact h
  exact (h'.setDispstat (k := 1) (by decide) true).raiseIfEnabled 4 (by decide)

/-- An event keeps the invariant when its effect on the bus does. -/
theorem State.Inv.event (h : s.Inv) {f : Bus → Bus} (hf : ∀ b, b.Ok → b.io.vcount = s.bus.io.vcount → (f b).Ok) :
    (s.event f).Inv :=
  h.congr rfl rfl (hf _ (busOk_stable.cost _ 0 h.bus) rfl)

theorem finish_inv (h : s.Inv) (ht : finish s = .next t) : t.Inv := by
  unfold finish at ht
  split at ht
  · cases ht
  · cases ht; exact h

theorem State.Inv.openBudget (h : s.Inv) (p : SeqPhase) : (s.openBudget p).Inv :=
  h.congr rfl rfl h.bus

theorem State.Inv.closeBudget (h : s.Inv) (k : Nat) : (s.closeBudget k).Inv :=
  h.congr rfl rfl h.bus

theorem lineStartStep_inv (h : s.Inv) (ht : lineStartStep s = .next t) : t.Inv := by
  have he := h.event (f := fun b => lineVblank s.r15 (lineMatch b)) fun b hb _ => hb.lineMatch.lineVblank _
  exact finish_inv (he.openBudget .hDraw) ht

theorem drawEndStep_inv (h : s.Inv) (ht : drawEndStep s = .next t) : t.Inv := by
  have he := (h.closeBudget 1006).event (f := lineHblank s.r15) fun b hb _ => hb.lineHblank _
  exact finish_inv (he.openBudget .hBlank) ht

theorem State.Inv.frameBoundary (h : s.Inv) : s.frameBoundary.Inv := by
  unfold State.frameBoundary
  split
  · exact h
  · refine h.congr rfl rfl (h.bus.withIo { h.bus.io with keyinput := ?_ } rfl)
    rw [BitVec.and_assoc]
    exact BitVec.and_zero

theorem nextLine_inv (h : s.Inv) : (nextLine s).Inv := by
  unfold nextLine
  split
  · refine (h.event ?_).frameBoundary
    intro b hb _
    exact (hb.setVcount (by decide)).setDispstat (by decide) false
  · refine h.event fun b hb _ => hb.setVcount ?_
    have := h.bus.io.vcount
    omega

theorem lineEndStep_inv (h : s.Inv) (ht : lineEndStep s = .next t) : t.Inv := by
  have hn := nextLine_inv (h.closeBudget 226)
  cases ht
  exact hn.congr rfl rfl hn.bus

theorem loopStep_inv (h : s.Inv) (ht : loopStep s = .next t) : t.Inv := by
  unfold loopStep at ht
  split at ht
  · exact lineStartStep_inv h ht
  · split at ht
    · exact budgetStep_inv h ht
    · exact drawEndStep_inv h ht
  · split at ht
    · exact budgetStep_inv h ht
    · exact lineEndStep_inv h ht

/-- Settles O4: reset with any parameters meets the invariant, so with the default ones. -/
theorem invAtReset : Obligations.InvAtReset :=
  State.resetWith_inv _ _

/-- Settles O5: the reset input gives the reset state, the refusal and the fatal latch stop the machine, and every action of
the loop keeps the invariant. -/
theorem invKeptByStep : Obligations.InvKeptByStep := by
  intro s t h ht
  unfold step machineStep at ht
  split at ht
  · cases ht; exact State.resetWith_inv _ _
  · split at ht
    · cases ht
    · split at ht
      · cases ht
      · exact loopStep_inv (s := s.popReset) (h.congr rfl rfl h.bus) ht

end Sys2Proof.Machine
end

section
/-! What an instruction cannot do: leave USER mode without an exception, write flags that R28 does not list, be refused for
anything but R506 (spec `10_state.md` R26-R28, `41_arm_multiply_psr.md` R311, R312, `50_dma.md` R506). -/

namespace Sys2Proof.Machine

variable {i : Instr} {s t : State}

/-! ## USER mode -/

/-- The part of the status registers that USER mode cannot write: SPSRs and CPSR bits 23:0 but T. -/
structure SamePrivileged (s t : State) : Prop where
  spsr : t.cpu.spsr = s.cpu.spsr
  status : ∀ k, k < 24 → k ≠ 5 → t.cpu.cpsr.getLsbD k = s.cpu.cpsr.getLsbD k

theorem SamePrivileged.refl (s : State) : SamePrivileged s s := ⟨rfl, fun _ _ _ => rfl⟩

theorem SamePrivileged.mode (h : SamePrivileged s t) : t.mode = s.mode := by
  have hf : modeField t.cpu.cpsr = modeField s.cpu.cpsr := by
    apply BitVec.eq_of_getLsbD_eq
    intro j hj
    simp only [modeField, BitVec.getLsbD_extractLsb', h.status (0 + j) (by omega) (by omega)]
  simp only [State.mode, modeOf, hf]

/-- An update of CPSR that keeps bits 23:0 but T. -/
theorem SamePrivileged.trans {u : State} (h : SamePrivileged s t) (hp : u.cpu.spsr = t.cpu.spsr)
    (hc : ∀ k, k < 24 → k ≠ 5 → u.cpu.cpsr.getLsbD k = t.cpu.cpsr.getLsbD k) : SamePrivileged s u :=
  ⟨hp.trans h.spsr, fun k hk h5 => (hc k hk h5).trans (h.status k hk h5)⟩

/-- In USER mode MSR writes the flags byte alone (R311). -/
theorem cpsrMask_user (hm : s.mode = .usr) (fm : BitVec 4) {k : Nat} (hk : k < 24) : (s.cpsrMask fm).getLsbD k = false := by
  have h : ∀ k < 24, (0xFF000000#32).getLsbD k = false := by decide
  simp [State.cpsrMask, hm, h k hk]

/-- USER mode has no SPSR to restore (R26, R276). -/
theorem restoreCpsr_user (hm : s.mode = .usr) : s.restoreCpsr = s := by
  simp [State.restoreCpsr, hm, Spsrs.get]

theorem Chain.samePrivileged (h : Chain i s t) (hm : s.mode = .usr) (hi : raisesException i = false) :
    SamePrivileged s t := by
  induction h with
  | refl => exact .refl s
  | setX _ r v ih => exact ih.trans (by simp) (by simp)
  | setXu _ r v ih => exact ih.trans (by simp) (by simp)
  | writePc | tally | afterRead | memWrite | fatal => next ih => exact ih.trans rfl fun _ _ _ => rfl
  | setNZCV _ _ n z c v ih => exact ih.trans rfl fun k hk _ => withFlags_low _ _ _ _ _ k (by omega)
  | branchExchange _ v ih =>
    refine ih.trans rfl fun k hk h5 => ?_
    exact (getLsbD_setBit _ 5 k _ (by omega)).trans (if_neg h5)
  | restoreThenPc _ _ _ v ih =>
    rw [State.restoreThenPc, restoreCpsr_user (ih.mode.trans hm)]
    exact ih.trans rfl fun _ _ _ => rfl
  | enter _ hr _ _ => rw [hi] at hr; cases hr
  | moveToCpsr _ _ fm v _ ih =>
    exact ih.trans rfl fun k hk _ =>
      getLsbD_mergeBits_of_clear (by omega) (cpsrMask_user (ih.mode.trans hm) fm hk) _ _
  | moveToSpsr _ ht _ ih => rw [ih.mode.trans hm] at ht; cases ht

/-- Settles O59: no update but an exception's entry, which is excluded, writes what USER mode cannot. -/
theorem userModeIsConfined : Obligations.UserModeIsConfined := by
  intro i s t hs ht hi
  have hm : s.mode = .usr := by simp only [State.mode, modeOf, modeField, hs]; rfl
  have h := (exec_chain ht).samePrivileged hm hi
  exact ⟨h.mode.trans hm, h.spsr, h.status⟩

/-! ## Flags -/

/-- Flags are bits 31:28 of CPSR. -/
theorem nzcv_congr (h : ∀ k, 28 ≤ k → k < 32 → t.cpu.cpsr.getLsbD k = s.cpu.cpsr.getLsbD k) : t.nzcv = s.nzcv := by
  simp only [State.nzcv, State.flagN, State.flagZ, State.flagC, State.flagV]
  rw [h 31, h 30, h 29, h 28] <;> decide

theorem branchExchange_nzcv (s : State) (v : Word) : (s.branchExchange v).nzcv = s.nzcv :=
  nzcv_congr fun k h28 hk => (getLsbD_setBit _ 5 k _ hk).trans (if_neg (by omega))

/-- An exception entry keeps N, Z, C, V (R531). -/
theorem enter_nzcv (s : State) (e : Exception) : (s.enter e).nzcv = s.nzcv := by
  refine nzcv_congr fun k h28 hk => ?_
  rw [State.enter_cpsr, getLsbD_entryCpsr _ _ _ hk (by omega), if_neg (by omega), if_neg (by omega), if_neg (by omega)]

theorem Chain.nzcv (h : Chain i s t) (hi : mayWriteFlags i = false) : t.nzcv = s.nzcv := by
  induction h with
  | refl => rfl
  | setX _ r v ih => rw [← ih]; simp [State.nzcv]
  | setXu _ r v ih => rw [← ih]; simp [State.nzcv]
  | writePc | tally | afterRead | memWrite | moveToSpsr | fatal => next ih => exact ih
  | branchExchange _ v ih => rw [branchExchange_nzcv, ih]
  | enter _ _ e ih => rw [enter_nzcv, ih]
  | setNZCV _ hw | restoreThenPc _ hw | moveToCpsr _ hw => rw [hi] at hw; cases hw

/-- Settles O60: the updates left to an unlisted instruction keep N, Z, C, V. -/
theorem flagsWrittenOnlyWhereListed : Obligations.FlagsWrittenOnlyWhereListed :=
  fun _ _ _ hi ht => (exec_chain ht).nzcv hi

/-! ## Refusals -/

/-- No refusal but that of a DMA enable edge in the middle of its own run (R506). -/
def Bus.OnlyReentry (b : Bus) : Prop := b.refusal = none ∨ ∃ c, b.refusal = some (.dmaReentry c)

theorem Chain.onlyReentry (h : Chain i s t) (hs : s.bus.OnlyReentry) : t.bus.OnlyReentry := by
  induction h with
  | refl => exact hs
  | setX | setXu | restoreThenPc => next ih => simpa [State.restoreThenPc] using ih
  | afterRead _ a w ih => exact refusal_stable.afterRead a w _ ih
  | memWrite _ _ a w v ih => exact refusal_stable.busWrite _ a w v _ ih
  | writePc | tally | setNZCV | branchExchange | enter | moveToCpsr | moveToSpsr | fatal => next ih => exact ih

theorem Answers.next_or_refused {r : Result} (h : Answers i s r) (hs : s.bus.OnlyReentry) :
    (∃ t, r = .next t) ∨ (storesMemory i = true ∧ ∃ c, r = .refused (.dmaReentry c)) := by
  cases h with
  | @next t _ => exact .inl ⟨t, rfl⟩
  | @finish t hi h =>
    unfold Machine.finish
    rcases h.onlyReentry hs with hn | ⟨c, hc⟩
    · rw [hn]; exact .inl ⟨t, rfl⟩
    · rw [hc]; exact .inr ⟨hi, c, rfl⟩

/-- Settles O22: an answer is the end of a chain, and the bus meets no refusal but R506's. -/
theorem everyInstructionAnswers : Obligations.EveryInstructionAnswers :=
  fun i s hs => (exec_answers i s).next_or_refused (.inl hs)

end Sys2Proof.Machine
end

section
/-! Return from an exception by an instruction that writes r15: data processing with S, and LDM with S and r15 in the list
(spec `40_arm_data_processing.md` R276; `42_arm_load_store.md` R336, R340, R344). -/

namespace Sys2Proof.Machine

variable {s t : State} {l : List (Reg × Word)} {k : Nat}

/-! ## CPSR <- SPSR -/

theorem restoreLegal_some {p : Word} (h : s.cpu.spsr.get s.mode = some p) : s.restoreLegal = legalMode p := by
  simp [State.restoreLegal, h]

theorem restoreLegal_none (h : s.cpu.spsr.get s.mode = none) : s.restoreLegal = true := by
  simp [State.restoreLegal, h]

theorem restoreCpsr_cpsr_some {p : Word} (h : s.cpu.spsr.get s.mode = some p) : s.restoreCpsr.cpu.cpsr = p := by
  simp [State.restoreCpsr, h]

theorem restoreCpsr_cpsr_none (h : s.cpu.spsr.get s.mode = none) : s.restoreCpsr.cpu.cpsr = s.cpu.cpsr := by
  simp [State.restoreCpsr, h]

/-- The CPSR that is restored depends on CPSR and the SPSRs alone. -/
theorem restoreCpsr_cpsr_congr (hc : t.cpu.cpsr = s.cpu.cpsr) (hp : t.cpu.spsr = s.cpu.spsr) :
    t.restoreCpsr.cpu.cpsr = s.restoreCpsr.cpu.cpsr := by
  have hg : t.cpu.spsr.get t.mode = s.cpu.spsr.get s.mode := by simp only [State.mode, hc, hp]
  cases h : s.cpu.spsr.get s.mode with
  | none => rw [restoreCpsr_cpsr_none h, restoreCpsr_cpsr_none (hg.trans h), hc]
  | some p => rw [restoreCpsr_cpsr_some h, restoreCpsr_cpsr_some (hg.trans h)]

/-- An effect that keeps N, Z, C, V keeps CPSR. -/
theorem Effect.cpsr_eq (h : Effect s l s.nzcv k t) : t.cpu.cpsr = s.cpu.cpsr := by
  obtain ⟨hn, hz, hc, hv⟩ : t.flagN = s.flagN ∧ t.flagZ = s.flagZ ∧ t.flagC = s.flagC ∧ t.flagV = s.flagV := by
    simpa [State.nzcv] using h.flags
  apply BitVec.eq_of_getLsbD_eq
  intro j hj
  by_cases hlow : j < 28
  · exact h.status j hlow
  · obtain rfl | rfl | rfl | rfl : j = 28 ∨ j = 29 ∨ j = 30 ∨ j = 31 := by omega
    · exact hv
    · exact hc
    · exact hz
    · exact hn

theorem State.restoreThenPc_get (s : State) (v : Word) {p : PhysReg} (hp : p ≠ .r15) :
    (s.restoreThenPc v).cpu.regs.get p = s.cpu.regs.get p := by
  rw [← s.restoreCpsr_regs]
  exact State.setX_get_pc s.restoreCpsr hp v

/-- A return after register writes that leave CPSR and the bus alone: CPSR from the SPSR, pc aligned for the new T (R276). -/
theorem Effect.restoreThenPc (h : Effect s l s.nzcv 0 t) (hb : t.bus = s.bus) (v : Word) (n : Nat) :
    BranchStep s (l.map fun w => phys s.mode w.1) v s.restoreCpsr.cpu.cpsr n ((t.restoreThenPc v).tally n) where
  target := rfl
  latch := rfl
  cpsr := restoreCpsr_cpsr_congr h.cpsr_eq h.spsr
  regs p hp := by
    obtain ⟨hpc, hl⟩ : p ≠ .r15 ∧ ∀ w ∈ l, p ≠ phys s.mode w.1 := by
      simpa [eq_comm] using hp
    exact (t.restoreThenPc_get v hpc).trans (h.regs.others p hpc hl)
  spsr := by simpa [State.restoreThenPc] using h.spsr
  bus := SameBus.of_eq (by simpa [State.restoreThenPc] using hb)
  cycles := by simpa [State.restoreThenPc] using h.cycles
  control := by
    obtain ⟨h1, h2, h3, h4, h5, h6, h7, h8⟩ := h.control
    constructor <;> simpa [State.restoreThenPc]

/-! ## Data processing -/

/-- Every row of the table is the skeleton of R263 with some operation, whose result is the row's. -/
theorem dataProcessingRows_exec {c : Cond} {sb : Bool} {rn rd : Reg} {o : Operand2} {r : ResultRow}
    (h : r ∈ dataProcessingRows s c sb rn rd o) :
    ∃ op rn', exec r.instr s = dataProc op c sb rn' rd o s ∧
      s.aluResult op rn' o = ⟨r.value, r.carry, r.overflow⟩ := by
  simp only [dataProcessingRows, logicalRows, arithmeticRows, List.cons_append, List.nil_append, List.mem_cons,
    List.not_mem_nil, or_false] at h
  rcases h with rfl | rfl | rfl | rfl | rfl | rfl | rfl | rfl | rfl | rfl | rfl | rfl
  · exact ⟨aluAnd, rn, rfl, rfl⟩
  · exact ⟨aluEor, rn, rfl, rfl⟩
  · exact ⟨aluOrr, rn, rfl, rfl⟩
  · exact ⟨aluBic, rn, rfl, rfl⟩
  · exact ⟨aluMov, 0#4, rfl, rfl⟩
  · exact ⟨aluMvn, 0#4, rfl, rfl⟩
  · exact ⟨aluAdd, rn, rfl, addC_sumRow _ _ _ _⟩
  · exact ⟨aluAdc, rn, rfl, addC_sumRow _ _ _ _⟩
  · exact ⟨aluSub, rn, rfl, addC_differenceRow _ _ _ _⟩
  · exact ⟨aluSbc, rn, rfl, addC_differenceRow _ _ _ _⟩
  · exact ⟨aluRsb, rn, rfl, addC_differenceRow _ _ _ _⟩
  · exact ⟨aluRsc, rn, rfl, addC_differenceRow _ _ _ _⟩

theorem dataProc_return (op : AluOp) {c : Cond} {rn : Reg} {o : Operand2} (hc : s.condPass c = true)
    (hl : s.restoreLegal = true) :
    Completes (dataProc op c true rn 15#4 o s)
      (BranchStep s [] (s.aluResult op rn o).value s.restoreCpsr.cpu.cpsr (dataProcessingCycles 15#4 o)) := by
  have hk : dataProcessingCycles 15#4 o = 3 + operand2Cycles o := by cases o <;> rfl
  rw [dataProc, conditional_pass hc, hk]
  exact ⟨_, by rw [if_pos rfl, if_pos rfl, if_pos hl], (Effect.refl s).restoreThenPc rfl _ _⟩

theorem dataProc_fatal (op : AluOp) {c : Cond} {rn : Reg} {o : Operand2} (hc : s.condPass c = true)
    (hl : s.restoreLegal = false) : dataProc op c true rn 15#4 o s = fatalExecute s := by
  simp [dataProc, conditional_pass hc, hl]

/-- Settles O13: every row is the skeleton of R263, which returns or stops by the SPSR. -/
theorem dataProcessingReturns : Obligations.DataProcessingReturns := by
  intro s c rn o r hc hr
  obtain ⟨op, rn', he, hv⟩ := dataProcessingRows_exec hr
  have ret : s.restoreLegal = true → Completes (exec r.instr s)
      (BranchStep s [] r.value s.restoreCpsr.cpu.cpsr (dataProcessingCycles 15#4 o)) := by
    intro hl
    have := dataProc_return op (rn := rn') (o := o) hc hl
    rwa [← he, hv] at this
  refine ⟨fun p hp hl => ?_, fun hp => ?_, fun p hp hl => ?_⟩
  · have := ret ((restoreLegal_some hp).trans hl)
    rwa [restoreCpsr_cpsr_some hp] at this
  · have := ret (restoreLegal_none hp)
    rwa [restoreCpsr_cpsr_none hp] at this
  · unfold EndsFatal
    rw [he, dataProc_fatal op hc ((restoreLegal_some hp).trans hl)]
    exact fatal_spec _ s

/-! ## The lists and addresses of a block transfer -/

theorem regList_eq_listedBelow (list : BitVec 16) (k : Nat) : regList list k = listedBelow k list := by
  induction k with
  | zero => rfl
  | succ k ih =>
    rw [regList, ih, listedBelow, listedBelow, List.range_succ, List.filter_append, List.map_append]
    cases h : list.getLsbD k <;> simp [List.filter, h]

theorem listedLow_eq (list : BitVec 16) : listedLow list = listedBelow 15 list := regList_eq_listedBelow list 15

/-- r15 counts as one more register. -/
theorem listCount_eq (list : BitVec 16) :
    listCount list = (listedBelow 15 list).length + (if list.getLsbD 15 then 1 else 0) := by
  rw [← listedLow_eq, listCount, listed, regList, List.length_append, listedLow]
  split <;> rfl

theorem blockStart_eq (m : BlockMode) (base : Word) (list : BitVec 16) :
    blockStart m base list = blockStartOf m base (listCount list) := by
  obtain ⟨pre, up, _, _⟩ := m
  cases up <;> cases pre <;> rfl

theorem blockFinal_eq (m : BlockMode) (base : Word) (list : BitVec 16) :
    blockFinal m base list = blockFinalOf m base (listCount list) := rfl

theorem ne_15_of_mem_listedBelow {list : BitVec 16} {r : Reg} (h : r ∈ listedBelow 15 list) : r ≠ 15#4 := by
  obtain ⟨j, hj, rfl⟩ := List.mem_map.mp h
  have hlt : j < 15 := List.mem_range.mp (List.mem_filter.mp hj).1
  intro he
  have := congrArg BitVec.toNat he
  rw [BitVec.toNat_ofNat] at this
  simp at this
  omega

theorem wordAt_zero (a : Word) : wordAt a 0 = a := by simp [wordAt]

theorem wordAt_succ (a : Word) (j : Nat) : wordAt a (j + 1) = wordAt (a + 4#32) j := by
  unfold wordAt
  rw [show 4 * (j + 1) = 4 + 4 * j by omega, BitVec.ofNat_add, BitVec.add_assoc]

theorem blockLoads_cons (b : Bus) (r15 a : Word) (r : Reg) (l : List Reg) :
    blockLoads b r15 a (r :: l) = (r, readRaw b r15 a .word) :: blockLoads b r15 (a + 4#32) l := by
  simp [blockLoads, List.zipIdx_cons, List.zipIdx_succ, wordAt_zero, wordAt_succ]

/-! ## Block loads -/

/-- A read outside the EEPROM window changes nothing (R94). -/
theorem State.afterRead_of_noEeprom {a : Word} {w : Width} (h : eepromWindow s.bus (w.align a) false = false) :
    s.afterRead a w = s := by
  simp [State.afterRead, Machine.afterRead, h]

/-- The load loop writes the loads of the block, in the current mode's view, and leaves r15 and the bus (R336). -/
theorem Effect.loadRegs {fl : Bool × Bool × Bool × Bool} {regs : List Reg} {a : Word} (h : Effect s l fl k t)
    (hr : ∀ r ∈ regs, r ≠ 15#4) (he : noEeprom t a regs.length) :
    Effect s (l ++ blockLoads t.bus t.r15 a regs) fl k (t.loadRegs false regs a) ∧
      (t.loadRegs false regs a).bus = t.bus ∧ (t.loadRegs false regs a).r15 = t.r15 := by
  induction regs generalizing l t a with
  | nil => exact ⟨by simpa [blockLoads, State.loadRegs] using h, rfl, rfl⟩
  | cons r rest ih =>
    have h0 : t.afterRead a .word = t :=
      State.afterRead_of_noEeprom (by simpa [wordAt_zero] using he 0 (by simp))
    have hr15 : (t.setX r (t.readRaw a .word)).r15 = t.r15 := State.setX_r15 t (hr r (by simp)) _
    have hrest := ih (h.setX r (t.readRaw a .word)) (a := a + 4#32) (fun q hq => hr q (by simp [hq])) fun j hj => by
      simpa [wordAt_succ] using he (j + 1) (by simpa using hj)
    rw [State.setX_bus, hr15, List.append_assoc] at hrest
    simpa [State.loadRegs, h0, blockLoads_cons, State.readRaw] using hrest

/-! ## LDM -/

/-- The registers that LDM writes before r15, in order: the base, then the list (R336). -/
def ldmWrites (s : State) (m : BlockMode) (rn : Reg) (list : BitVec 16) : List (Reg × Word) :=
  let final := blockFinalOf m (s.x rn) (listCount list)
  (if m.wback then [(rn, final)] else []) ++
    blockLoads s.bus (r15AtLoads s m rn final) (blockStartOf m (s.x rn) (listCount list)) (listedBelow 15 list)

theorem ldmLow_effect {m : BlockMode} {rn : Reg} {list : BitVec 16} (hu : (m.psr && !list.getLsbD 15) = false)
    (he : noEeprom s (blockStartOf m (s.x rn) (listCount list)) (listedBelow 15 list).length) :
    Effect s (ldmWrites s m rn list) s.nzcv 0 (s.ldmLow m rn list) ∧ (s.ldmLow m rn list).bus = s.bus ∧
      (s.ldmLow m rn list).r15 = r15AtLoads s m rn (blockFinalOf m (s.x rn) (listCount list)) := by
  generalize hf : blockFinalOf m (s.x rn) (listCount list) = final
  have base : Effect s (if m.wback then [(rn, final)] else []) s.nzcv 0 (if m.wback then s.setX rn final else s) := by
    split
    · exact (Effect.refl s).setX rn final
    · exact Effect.refl s
  have hb : (if m.wback then s.setX rn final else s).bus = s.bus := by split <;> simp
  have hr : (if m.wback then s.setX rn final else s).r15 = r15AtLoads s m rn final := by
    unfold r15AtLoads
    by_cases hw : m.wback = true
    · by_cases h15 : rn = 15#4
      · subst h15; simp [hw]
      · simp [hw, h15, State.setX_r15 s h15]
    · simp [hw]
  have := base.loadRegs (regs := listedBelow 15 list) (a := blockStartOf m (s.x rn) (listCount list))
    (fun r hr => ne_15_of_mem_listedBelow hr) (by unfold noEeprom; rw [hb]; exact he)
  rw [hb, hr] at this
  rw [ldmWrites, State.ldmLow, hu, listedLow_eq, blockStart_eq, blockFinal_eq, hf]
  exact this

/-- The word that LDM loads into r15, from the highest address (R336). -/
def ldmPcWord (s : State) (m : BlockMode) (rn : Reg) (list : BitVec 16) : Word :=
  readRaw s.bus (r15AtLoads s m rn (blockFinalOf m (s.x rn) (listCount list)))
    (wordAt (blockStartOf m (s.x rn) (listCount list)) (listedBelow 15 list).length) .word

section
variable {c : Cond} {m : BlockMode} {rn : Reg} {list : BitVec 16}

theorem listCount_of_pc (h15 : list.getLsbD 15 = true) : listCount list = (listedBelow 15 list).length + 1 := by
  rw [listCount_eq, if_pos h15]

/-- With r15 in the list, the lower registers are loaded in the current mode's view. -/
theorem ldmLow_effect_of_pc (h15 : list.getLsbD 15 = true)
    (he : noEeprom s (blockStartOf m (s.x rn) (listCount list)) (listCount list)) :
    Effect s (ldmWrites s m rn list) s.nzcv 0 (s.ldmLow m rn list) ∧ (s.ldmLow m rn list).bus = s.bus ∧
      (s.ldmLow m rn list).r15 = r15AtLoads s m rn (blockFinalOf m (s.x rn) (listCount list)) := by
  refine ldmLow_effect (by simp [h15]) fun j hj => he j ?_
  rw [listCount_of_pc h15]
  omega

/-- LDM with r15: pc gets the last word, with S after CPSR is restored. -/
theorem ldmPc_eq (h15 : list.getLsbD 15 = true)
    (he : noEeprom s (blockStartOf m (s.x rn) (listCount list)) (listCount list)) :
    s.ldmPc m rn list = if m.psr then (s.ldmLow m rn list).restoreThenPc (ldmPcWord s m rn list)
      else (s.ldmLow m rn list).writePc (ldmPcWord s m rn list) := by
  obtain ⟨-, hb, hr⟩ := ldmLow_effect_of_pc h15 he
  have ha : s.ldmPcAddress m rn list =
      wordAt (blockStartOf m (s.x rn) (listCount list)) (listedBelow 15 list).length := by
    rw [State.ldmPcAddress, blockStart_eq, listedLow_eq, wordAt]
  have hread : (s.ldmLow m rn list).afterRead (s.ldmPcAddress m rn list) .word = s.ldmLow m rn list := by
    refine State.afterRead_of_noEeprom ?_
    rw [hb, ha]
    exact he _ (by rw [listCount_of_pc h15]; omega)
  have hv : (s.ldmLow m rn list).readRaw (s.ldmPcAddress m rn list) .word = ldmPcWord s m rn list := by
    rw [State.readRaw, hb, hr, ha, ldmPcWord]
  rw [State.ldmPc]
  simp only [hread, hv]

theorem ldmPc_writes (hc : s.condPass c = true) (h15 : list.getLsbD 15 = true) (hp : m.psr = false)
    (he : noEeprom s (blockStartOf m (s.x rn) (listCount list)) (listCount list)) :
    Completes (exec (.armLdm c m rn list) s) (RegisterEffect s
      (ldmWrites s m rn list ++ [(15#4, ldmPcWord s m rn list)]) s.nzcv (listCount list + 4)) := by
  obtain ⟨hl, hb, -⟩ := ldmLow_effect_of_pc h15 he
  refine ⟨((s.ldmLow m rn list).writePc (ldmPcWord s m rn list)).tally (listCount list + 4), ?_,
    ((hl.writePc _).tally _).zero_add, SameBus.of_eq (by simpa using hb)⟩
  simp [exec, execArmLdm, conditional_pass hc, h15, hp, ldmPc_eq h15 he]

theorem ldmPc_returns (hc : s.condPass c = true) (h15 : list.getLsbD 15 = true) (hp : m.psr = true)
    (hl : s.restoreLegal = true) (he : noEeprom s (blockStartOf m (s.x rn) (listCount list)) (listCount list)) :
    Completes (exec (.armLdm c m rn list) s) fun t =>
      BranchStep s ((ldmWrites s m rn list).map fun w => phys s.mode w.1) (ldmPcWord s m rn list)
        s.restoreCpsr.cpu.cpsr (listCount list + 4) t ∧
      ∀ i u, i ≠ 15#4 → lastWrite (ldmWrites s m rn list) i = some u → t.cpu.regs.get (phys s.mode i) = u := by
  obtain ⟨heff, hb, -⟩ := ldmLow_effect_of_pc h15 he
  refine ⟨((s.ldmLow m rn list).restoreThenPc (ldmPcWord s m rn list)).tally (listCount list + 4), ?_,
    heff.restoreThenPc hb _ _, fun i u hi hu => ?_⟩
  · simp [exec, execArmLdm, conditional_pass hc, h15, hp, hl, ldmPc_eq h15 he]
  · rw [State.tally_regs, State.restoreThenPc_get _ _ (phys_ne_r15 _ hi)]
    exact heff.regs.written i u hi hu

theorem ldmPc_fatal (hc : s.condPass c = true) (h15 : list.getLsbD 15 = true) (hp : m.psr = true)
    (hl : s.restoreLegal = false) : exec (.armLdm c m rn list) s = fatalExecute s := by
  simp [exec, execArmLdm, conditional_pass hc, h15, hp, hl]

end

/-- Settles O25: the load loop as register writes, then a write of pc or a return. -/
theorem ldmPc : Obligations.LdmPc := by
  intro s c m rn list hc h15 l start final r writes v he returns
  have hn : listCount list = l.length + 1 := listCount_of_pc h15
  have hw : ldmWrites s m rn list = writes := by rw [ldmWrites, hn]
  have hv : ldmPcWord s m rn list = v := by rw [ldmPcWord, hn]
  have he' : noEeprom s (blockStartOf m (s.x rn) (listCount list)) (listCount list) := by rw [hn]; exact he
  have ret : m.psr = true → s.restoreLegal = true →
      Completes (exec (.armLdm c m rn list) s) (returns s.restoreCpsr.cpu.cpsr) := by
    intro hp hl
    obtain ⟨t, ht, hb, hwr⟩ := ldmPc_returns (rn := rn) hc h15 hp hl he'
    rw [hw, hv, hn] at hb
    rw [hw] at hwr
    refine ⟨t, ht, hb.cpsr, hb.target, hb.latch, fun q hq hq' => hb.regs q ?_, hwr, hb.spsr, hb.cycles, hb.control, hb.bus⟩
    simpa [hq, eq_comm] using hq'
  refine ⟨fun hp => ?_, fun hp p hs hl => ?_, fun hp hs => ?_, fun hp p hs hl => ?_⟩
  · have := ldmPc_writes (rn := rn) hc h15 hp he'
    rwa [hw, hv, hn] at this
  · have := ret hp ((restoreLegal_some hs).trans hl)
    rwa [restoreCpsr_cpsr_some hs] at this
  · have := ret hp (restoreLegal_none hs)
    rwa [restoreCpsr_cpsr_none hs] at this
  · unfold EndsFatal
    rw [ldmPc_fatal hc h15 hp ((restoreLegal_some hs).trans hl)]
    exact fatal_spec _ s

end Sys2Proof.Machine
end

section
/-! Words of no class and reserved positions: how they decode, and that a fatal condition stops the machine (spec
`30_encoding.md` R222, R233, R238, R240, R241; `42_arm_load_store.md` R335; `43_arm_branch_system.md` R366; `10_state.md` R37). -/

namespace Sys2Proof.Machine

/-! ## Rows of mask and match -/

variable {n : Nat} {w m v m' v' : BitVec n}

/-- A word of one row lies in no row that asks another value of a common bit. -/
theorem matchesRow_eq_false (h : w &&& m = v) (hne : v &&& m' ≠ v' &&& m) : matchesRow w m' v' = false := by
  rw [matchesRow, beq_eq_false_iff_ne]
  rintro rfl
  apply hne
  rw [← h, BitVec.and_assoc, BitVec.and_assoc, BitVec.and_comm m m']

/-- A word of one row lies in every wider row. -/
theorem matchesRow_eq_true (h : w &&& m = v) (hm : m &&& m' = m') (hv : v &&& m' = v') : matchesRow w m' v' = true := by
  rw [matchesRow, beq_iff_eq, ← hv, ← h, BitVec.and_assoc, hm]

/-- A word misses a row when it misses a wider one. -/
theorem matchesRow_eq_false_of_wider (h : w &&& m ≠ v) (hm : m' &&& m = m) (hv : v' &&& m = v) :
    matchesRow w m' v' = false := by
  rw [matchesRow, beq_eq_false_iff_ne]
  rintro rfl
  apply h
  rw [← hv, BitVec.and_assoc, hm]

/-- A word of a row has the bits that the row asks. -/
theorem getLsbD_of_row (h : w &&& m = v) {k : Nat} (hk : m.getLsbD k = true) : w.getLsbD k = v.getLsbD k := by
  rw [← h, BitVec.getLsbD_and, hk, Bool.and_true]

/-- A word of a row lies in the wider row of fewer mask bits. -/
theorem row_widen (h : w &&& m = v) (hm : m &&& m' = m') : w &&& m' = v &&& m' := by
  rw [← h, BitVec.and_assoc, hm]

/-! ## ARM words -/

section
variable {w : BitVec 32}

/-- The reserved positions of the halfword class come to its sub-decoder (R222, R233). -/
theorem decodeArm_halfSigned {v : BitVec 32} (h : w &&& 0x0E0000F0#32 = v) (hv : v = 0x000000D0#32 ∨ v = 0x000000F0#32) :
    decodeArm w = decodeHalfSigned w := by
  rcases hv with rfl | rfl <;>
    simp (disch := decide) [decodeArm, matchesRow_eq_false h, matchesRow_eq_true h]

theorem decodeArm_sh00 (h : w &&& 0x0E0000F0#32 = 0x00000090#32) (h1 : w &&& 0x0FC00000#32 ≠ 0x00000000#32)
    (h2 : w &&& 0x0F800000#32 ≠ 0x00800000#32) (h3 : w &&& 0x0FB00FF0#32 ≠ 0x01000090#32) :
    decodeArm w = decodeHalfSigned w := by
  have hm1 : matchesRow w 0x0FC000F0#32 0x00000090#32 = false := matchesRow_eq_false_of_wider h1 rfl rfl
  have hm2 : matchesRow w 0x0F8000F0#32 0x00800090#32 = false := matchesRow_eq_false_of_wider h2 rfl rfl
  have hm3 : matchesRow w 0x0FB00FF0#32 0x01000090#32 = false := matchesRow_eq_false_of_wider h3 rfl rfl
  simp (disch := decide) [decodeArm, matchesRow_eq_false h, matchesRow_eq_true h, hm1, hm2, hm3]

theorem decodeArm_ldrdPosition (h : w &&& 0x0E1000F0#32 = 0x000000D0#32) :
    decodeArm w = .armLdrdPosition (Cond.ofBits (w.extractLsb' 28 4)) (decodeIndexing w) (w.extractLsb' 16 4)
      (w.extractLsb' 12 4) (decodeOffset8 w) := by
  rw [decodeArm_halfSigned (row_widen h rfl) (.inl rfl), decodeHalfSigned]
  rw [getLsbD_of_row h (k := 20) rfl, getLsbD_of_row h (k := 6) rfl, getLsbD_of_row h (k := 5) rfl]
  rfl

theorem decodeArm_strdPosition (h : w &&& 0x0E1000F0#32 = 0x000000F0#32) :
    decodeArm w = .armStrdPosition (Cond.ofBits (w.extractLsb' 28 4)) (decodeIndexing w) (w.extractLsb' 16 4)
      (w.extractLsb' 12 4) (decodeOffset8 w) := by
  rw [decodeArm_halfSigned (row_widen h rfl) (.inr rfl), decodeHalfSigned]
  rw [getLsbD_of_row h (k := 20) rfl, getLsbD_of_row h (k := 6) rfl, getLsbD_of_row h (k := 5) rfl]
  rfl

theorem decodeArm_reservedSh00 (h : w &&& 0x0E0000F0#32 = 0x00000090#32) (h1 : w &&& 0x0FC00000#32 ≠ 0x00000000#32)
    (h2 : w &&& 0x0F800000#32 ≠ 0x00800000#32) (h3 : w &&& 0x0FB00FF0#32 ≠ 0x01000090#32) :
    decodeArm w = .armReservedSh00 (Cond.ofBits (w.extractLsb' 28 4)) := by
  rw [decodeArm_sh00 h h1 h2 h3, decodeHalfSigned]
  rw [getLsbD_of_row h (k := 6) rfl, getLsbD_of_row h (k := 5) rfl]
  cases w.getLsbD 20 <;> rfl

theorem decodeArm_coprocTransfer (h : w &&& 0x0E000000#32 = 0x0C000000#32) :
    decodeArm w = .armNoClassCoprocTransfer (Cond.ofBits (w.extractLsb' 28 4)) := by
  simp (disch := decide) [decodeArm, matchesRow_eq_false h, matchesRow_eq_true h]

theorem decodeArm_coprocOperation (h : w &&& 0x0F000000#32 = 0x0E000000#32) :
    decodeArm w = .armNoClassCoprocOperation (Cond.ofBits (w.extractLsb' 28 4)) := by
  simp (disch := decide) [decodeArm, matchesRow_eq_false h]

end

/-! ## Thumb words -/

section
variable {h : BitVec 16}

theorem decodeThumb_noClassE8 (hr : h &&& 0xF800#16 = 0xE800#16) : decodeThumb h = .thumbNoClassE8 := by
  simp (disch := decide) [decodeThumb, matchesRow_eq_false hr, matchesRow_eq_true hr]

theorem decodeThumb_noClassB0 (hr : h &&& 0xF000#16 = 0xB000#16) (h1 : h &&& 0xFF00#16 ≠ 0xB000#16)
    (h2 : h &&& 0xF600#16 ≠ 0xB400#16) : decodeThumb h = .thumbNoClassB0 := by
  have hm1 : matchesRow h 0xFF00#16 0xB000#16 = false := beq_eq_false_iff_ne.mpr h1
  have hm2 : matchesRow h 0xF600#16 0xB400#16 = false := beq_eq_false_iff_ne.mpr h2
  simp (disch := decide) [decodeThumb, matchesRow_eq_false hr, hm1, hm2]

end

/-! ## The fatal latch (R37) -/

variable {s t : State}

/-- A fatal condition behind a condition that passes. -/
theorem endsFatal_of_conditional {i : Instr} {c : Cond} {f : Fault} {k : State → Result} (hc : s.condPass c = true)
    (he : exec i s = conditional c s k) (hk : k s = fatal f s) : EndsFatal i s f := by
  unfold EndsFatal
  rw [he, conditional_pass hc, hk]
  exact fatal_spec f s

/-- A running machine executes the instruction at the program counter (R34, R575, R576). -/
theorem step_of_running (h : s.Running) : step s = cpuStep s.popReset := by
  obtain ⟨⟨hf, hr⟩, hreset, hrun, hb⟩ := h
  have hbudget : budgetStep s.popReset = cpuStep s.popReset := by simp [budgetStep, hrun]
  have hloop : loopStep s.popReset = budgetStep s.popReset := by
    unfold State.inBudget at hb
    unfold loopStep
    rw [State.popReset_seq, State.popReset_budgetPos]
    split at hb <;> simp_all
  simp only [step, machineStep, hreset, hr, hf, hloop, hbudget, Bool.false_eq_true, if_false]

theorem retire_of_fatal {f : Fault} (h : t.fatal = some f) : t.retire = t := by
  simp [State.retire, h]

theorem step_of_fatal {f : Fault} (hf : s.fatal = some f) (hreset : s.resetLine = false) (hr : s.bus.refusal = none) :
    step s = .fault f := by
  simp [step, machineStep, hreset, hr, hf]

theorem cpuStep_of_fatal {f : Fault} (ht : exec s.currentInstr s.fetched = .next t) (hf : t.fatal = some f) :
    cpuStep s = .next t := by
  simp [cpuStep, ht, retire_of_fatal hf]

/-- Settles O33: by the rows of mask and match, and by the latch's place in the step. -/
theorem fatalWordsStop : Obligations.FatalWordsStop := by
  refine ⟨fun w => ⟨decodeArm_ldrdPosition, decodeArm_strdPosition, decodeArm_reservedSh00, decodeArm_coprocTransfer,
    decodeArm_coprocOperation⟩, fun h => ⟨decodeThumb_noClassE8, decodeThumb_noClassB0⟩, ?_, ?_,
    fun s f hf hreset hr => step_of_fatal hf hreset hr,
    fun s t f h ht hf => (step_of_running h).trans (cpuStep_of_fatal ht hf)⟩
  · intro s c ix rn rd off i f ht hc hi
    have hx : fatalExecute s = fatal (.executeError s.cpu.cur false) s := by rw [fatalExecute, ht]
    have hd : fatalDecode s = fatal (.decodeError s.cpu.cur false) s := by rw [fatalDecode, ht]
    simp only [List.mem_cons, Prod.mk.injEq, List.not_mem_nil, or_false] at hi
    rcases hi with ⟨rfl, rfl⟩ | ⟨rfl, rfl⟩ | ⟨rfl, rfl⟩ | ⟨rfl, rfl⟩ | ⟨rfl, rfl⟩
    · exact endsFatal_of_conditional hc rfl rfl
    · exact endsFatal_of_conditional hc rfl rfl
    · exact endsFatal_of_conditional hc rfl hx
    · exact endsFatal_of_conditional hc rfl hd
    · exact endsFatal_of_conditional hc rfl hd
  · intro s i ht hi
    have hd : exec i s = fatal (.decodeError s.cpu.cur true) s := by
      simp only [List.mem_cons, List.not_mem_nil, or_false] at hi
      rw [← ht]
      rcases hi with rfl | rfl <;> rfl
    unfold EndsFatal
    rw [hd]
    exact fatal_spec _ s

end Sys2Proof.Machine
end

section
/-! A step runs the instruction that the opcode at the program counter decodes to, and the reset input gives the reset state
(spec `10_state.md` R30, R33, R34, R60; `70_reset_and_hazards.md` R590, R591, R610). -/

namespace Sys2Proof.Machine

variable {s : State}

/-! ## The two fetches -/

/-- A fetch changes behind the bus the EEPROM and the BIOS bus latch alone (R76, R94). -/
theorem afterFetch_eq (b : Bus) (a : Word) (w : Width) :
    ∃ e v, afterFetch b a w = { b with eeprom := e, biosBus := v } := by
  unfold afterFetch afterRead
  split <;> split <;> exact ⟨_, _, rfl⟩

@[simp] theorem afterFetch_mem (b : Bus) (a : Word) (w : Width) : (afterFetch b a w).mem = b.mem := by
  obtain ⟨e, v, h⟩ := afterFetch_eq b a w
  rw [h]

@[simp] theorem afterFetch_io (b : Bus) (a : Word) (w : Width) : (afterFetch b a w).io = b.io := by
  obtain ⟨e, v, h⟩ := afterFetch_eq b a w
  rw [h]

@[simp] theorem afterFetch_flash (b : Bus) (a : Word) (w : Width) : (afterFetch b a w).flash = b.flash := by
  obtain ⟨e, v, h⟩ := afterFetch_eq b a w
  rw [h]

/-- The opcode that the next step executes: the latch, or what a fetch from r15 gives. -/
def State.nextOpcode (s : State) : Word :=
  if s.cpu.latchValid then s.cpu.latchOp else fetchValue s.bus s.r15 s.fetchWidth

theorem fillLatch_latchOp (s : State) : s.fillLatch.cpu.latchOp = s.nextOpcode := by
  unfold State.fillLatch State.nextOpcode
  split <;> rfl

/-- With the latch filled, r15 is one instruction past the one to execute (R30). -/
theorem fillLatch_r15 (s : State) : s.fillLatch.r15 = s.nextInstr + s.isize := by
  unfold State.fillLatch State.nextInstr
  split
  · exact (BitVec.sub_add_cancel _ _).symm
  · rfl

theorem fetchIntoLatch_get (s : State) {p : PhysReg} (hp : p ≠ .r15) :
    s.fetchIntoLatch.cpu.regs.get p = s.cpu.regs.get p :=
  Regs.get_set_other s.cpu.regs hp _

theorem fillLatch_get (s : State) {p : PhysReg} (hp : p ≠ .r15) : s.fillLatch.cpu.regs.get p = s.cpu.regs.get p := by
  unfold State.fillLatch
  split
  · rfl
  · exact fetchIntoLatch_get s hp

/-- A first fetch changes behind the bus no more than any. -/
theorem fillLatch_bus (s : State) : ∃ e v, s.fillLatch.bus = { s.bus with eeprom := e, biosBus := v } := by
  unfold State.fillLatch
  split
  · exact ⟨s.bus.eeprom, s.bus.biosBus, rfl⟩
  · exact afterFetch_eq _ _ _

theorem fillLatch_isize (s : State) : s.fillLatch.isize = s.isize := by
  rw [State.isize, State.fillLatch_thumb, State.isize]

/-! ## The state after both fetches -/

@[simp] theorem afterFetches_cpsr (s : State) : s.afterFetches.cpu.cpsr = s.cpu.cpsr :=
  s.clearTally.fillLatch_cpsr

@[simp] theorem afterFetches_spsr (s : State) : s.afterFetches.cpu.spsr = s.cpu.spsr :=
  s.clearTally.fillLatch_spsr

@[simp] theorem afterFetches_latchValid (s : State) : s.afterFetches.cpu.latchValid = true := rfl

@[simp] theorem afterFetches_cur (s : State) : s.afterFetches.cpu.cur = s.nextOpcode :=
  fillLatch_latchOp s.clearTally

/-- After both fetches r15 is two instructions past the one to execute (R30). -/
@[simp] theorem afterFetches_r15 (s : State) : s.afterFetches.r15 = s.nextInstr + s.isize + s.isize := by
  show s.clearTally.fillLatch.r15 + s.clearTally.fillLatch.isize = _
  rw [fillLatch_r15, fillLatch_isize]
  rfl

theorem afterFetches_get (s : State) {p : PhysReg} (hp : p ≠ .r15) :
    s.afterFetches.cpu.regs.get p = s.cpu.regs.get p :=
  (fetchIntoLatch_get _ hp).trans (fillLatch_get s.clearTally hp)

theorem afterFetches_bus (s : State) :
    s.afterFetches.bus.mem = s.bus.mem ∧ s.afterFetches.bus.io = s.bus.io ∧ s.afterFetches.bus.flash = s.bus.flash := by
  obtain ⟨e, v, h⟩ := fillLatch_bus s.clearTally
  have hb : s.afterFetches.bus = afterFetch s.clearTally.fillLatch.bus s.clearTally.fillLatch.r15
      s.clearTally.fillLatch.fetchWidth := rfl
  rw [hb, afterFetch_mem, afterFetch_io, afterFetch_flash, h]
  exact ⟨rfl, rfl, rfl⟩

/-! ## The opcode and its bytes (R70, R220) -/

theorem lanes_half (v : Word) : lane v 1 ++ lane v 0 = v.setWidth 16 := by
  rw [BitVec.setWidth_eq_extractLsb' (by decide)]
  exact BitVec.extractLsb'_append_extractLsb'_eq_extractLsb' rfl

theorem lanes_word (v : Word) : lane v 3 ++ lane v 2 ++ lane v 1 ++ lane v 0 = v := by
  have h1 : lane v 3 ++ lane v 2 = v.extractLsb' 16 16 := BitVec.extractLsb'_append_extractLsb'_eq_extractLsb' rfl
  have h2 : v.extractLsb' 16 16 ++ lane v 1 = v.extractLsb' 8 24 := BitVec.extractLsb'_append_extractLsb'_eq_extractLsb' rfl
  have h3 : v.extractLsb' 8 24 ++ lane v 0 = v.extractLsb' 0 32 := BitVec.extractLsb'_append_extractLsb'_eq_extractLsb' rfl
  rw [h1, h2, h3, BitVec.extractLsb'_eq_self]

/-- The decoder on the bytes of an opcode is the decoder on the opcode. -/
theorem decode_lanes (thumb : Bool) (op : Word) :
    decode thumb (if thumb then [lane op 0, lane op 1] else [lane op 0, lane op 1, lane op 2, lane op 3]) =
      .ok (decodeOpcode thumb op, []) := by
  cases thumb
  · simp only [decode, decodeOpcode, lanes_word, Bool.false_eq_true, if_false]
  · simp only [decode, decodeOpcode, lanes_half, if_true]

theorem currentInstr_eq (s : State) : s.currentInstr = decodeOpcode s.thumb s.nextOpcode := by
  rw [State.currentInstr, afterFetches_cur, State.thumb, afterFetches_cpsr]
  rfl

/-- Settles O3: the bytes of the opcode decode to what the step decodes. -/
theorem stepRunsDecodedInstruction : Obligations.StepRunsDecodedInstruction := by
  intro s i hrun op f hdec
  have hi : s.popReset.currentInstr = i := by
    have h : decodeOpcode s.thumb op = i := by simpa [decode_lanes] using hdec
    exact (currentInstr_eq s.popReset).trans h
  have hstep : step s = cpuStep s.popReset := step_of_running hrun
  obtain ⟨hmem, hio, hflash⟩ := afterFetches_bus s.popReset
  refine ⟨fun t ht => ?_, fun e he => ?_, fun e he => ?_, afterFetches_r15 s.popReset, afterFetches_cur s.popReset, rfl,
    State.fetched_cycles_default s.popReset, fun hc => ?_, afterFetches_cpsr s.popReset, afterFetches_spsr s.popReset,
    fun p hp => afterFetches_get s.popReset (by simpa using hp), hmem, hio, State.afterFetches_params s.popReset, hflash⟩
  · rw [hstep, cpuStep, hi, ht]
  · rw [hstep, cpuStep, hi, he]
  · rw [hstep, cpuStep, hi, he]
  · rw [← hi]
    exact State.fetched_cycles_other s.popReset hc

/-! ## The reset input -/

/-- A backup device that nothing has written reads 0 (R60). -/
theorem resetWith_backupReadByte (p : Params) (inputs : Inputs) (a : Nat) :
    backupReadByte (State.resetWith p inputs).bus a = 0#8 := by
  simp [backupReadByte, State.resetWith, Memory.read, unlisted]

/-- Reset enters SVC with both interrupts masked, in ARM state (R60; log entry 4). -/
theorem resetWith_status (p : Params) (inputs : Inputs) :
    (State.resetWith p inputs).flagI = true ∧ (State.resetWith p inputs).flagF = true ∧
      (State.resetWith p inputs).thumb = false ∧ (State.resetWith p inputs).mode = .svc := by
  have h : (0x000000D3#32).getLsbD 7 = true ∧ (0x000000D3#32).getLsbD 6 = true ∧ (0x000000D3#32).getLsbD 5 = false ∧
      modeOf 0x000000D3#32 = .svc := by decide
  exact h

/-- The reset input overrides everything (R591). -/
theorem step_of_resetLine (h : s.resetLine = true) : step s = .next (State.resetWith s.bus.params s.popReset.inputs) := by
  rw [step, machineStep, if_pos h]

/-- Settles O6: field by field of the reset state. -/
theorem resetState : Obligations.ResetState := by
  intro s hs
  have channel : ∀ c, Io.reset.dma.get c = ⟨0#32, 0#32, 0#16, 0#16, 0#32, 0#32, 0⟩ := by decide
  have timer : ∀ t, Io.reset.timer.get t = ⟨0#16, 0, 0#8, 0⟩ := by decide
  obtain ⟨hI, hF, hT, hM⟩ := resetWith_status s.bus.params s.popReset.inputs
  exact ⟨_, step_of_resetLine hs, rfl, rfl, hI, hF, hT, hM, rfl, rfl, rfl, rfl, rfl, rfl, rfl, rfl, rfl, rfl, rfl, rfl, rfl,
    channel, timer, resetWith_backupReadByte _ _, fun _ => rfl, fun _ => rfl, rfl, rfl, rfl, rfl⟩

end Sys2Proof.Machine
end

section
/-! Reads of the bus: aligned addresses, bytes and lanes, rotation, the BIOS region (spec `20_memory.md` R70-R91). -/

namespace Sys2Proof.Machine

/-! ## Aligned addresses (R89, R91) -/

theorem toNat_and_mask {m : Word} {n : Nat} (a : Word) (hm : m.toNat = 2 ^ n - 1) : (a &&& m).toNat = a.toNat % 2 ^ n := by
  rw [BitVec.toNat_and, hm, Nat.and_two_pow_sub_one_eq_mod]

/-- The number of low address bits that an access of this size ignores. -/
def Width.lowBits : Width → Nat
  | .byte => 0
  | .half => 1
  | .word => 2

theorem Width.bytes_eq (w : Width) : w.bytes = 2 ^ w.lowBits := by
  cases w <;> rfl

theorem Width.lowBits_le (w : Width) : w.lowBits ≤ 2 := by
  cases w <;> decide

theorem getLsbD_align (w : Width) (a : Word) (j : Nat) :
    (w.align a).getLsbD j = (a.getLsbD j && decide (w.lowBits ≤ j)) := by
  have mask : ∀ m : Word, (∀ i < 32, m.getLsbD i = decide (w.lowBits ≤ i)) →
      (a &&& m).getLsbD j = (a.getLsbD j && decide (w.lowBits ≤ j)) := by
    intro m hm
    by_cases hj : j < 32
    · rw [BitVec.getLsbD_and, hm j hj]
    · rw [BitVec.getLsbD_of_ge _ _ (by omega), BitVec.getLsbD_of_ge _ _ (by omega), Bool.false_and]
  cases w
  · simp [Width.align, Width.lowBits]
  · exact mask _ (by decide)
  · exact mask _ (by decide)

theorem align_eq_shift (w : Width) (a : Word) : w.align a = (a >>> w.lowBits) <<< w.lowBits := by
  refine BitVec.eq_of_getLsbD_eq fun j hj => ?_
  rw [getLsbD_align, BitVec.getLsbD_shiftLeft, BitVec.getLsbD_ushiftRight]
  by_cases h : w.lowBits ≤ j
  · simp [h, hj, Nat.not_lt.mpr h, -BitVec.getLsbD_eq_getElem, Nat.add_sub_cancel' h]
  · simp [h, Nat.lt_of_not_le h]

theorem toNat_align (w : Width) (a : Word) : (w.align a).toNat = a.toNat / w.bytes * w.bytes := by
  rw [align_eq_shift, BitVec.toNat_shiftLeft, BitVec.toNat_ushiftRight, Nat.shiftLeft_eq, Nat.shiftRight_eq_div_pow,
    ← Width.bytes_eq]
  exact Nat.mod_eq_of_lt (lt_of_le_of_lt (Nat.div_mul_le_self _ _) a.isLt)

theorem toNat_align_add {w : Width} {k : Nat} (a : Word) (hk : k < w.bytes) :
    (w.align a + BitVec.ofNat 32 k).toNat = (w.align a).toNat + k := by
  have ha := a.isLt
  rw [BitVec.toNat_add, BitVec.toNat_ofNat, toNat_align]
  cases w <;> simp only [Width.bytes] at hk ⊢ <;> omega

/-- A byte's number in an access has no bit that the aligned address keeps. -/
theorem getLsbD_laneNumber {w : Width} {k j : Nat} (hk : k < w.bytes) (hj : w.lowBits ≤ j) :
    (BitVec.ofNat 32 k).getLsbD j = false := by
  rw [Width.bytes_eq] at hk
  rw [BitVec.getLsbD_ofNat, Nat.testBit_lt_two_pow (lt_of_lt_of_le hk (Nat.pow_le_pow_right (by decide) hj)), Bool.and_false]

theorem align_add_eq_or {w : Width} {k : Nat} (a : Word) (hk : k < w.bytes) :
    w.align a + BitVec.ofNat 32 k = w.align a ||| BitVec.ofNat 32 k := by
  refine BitVec.add_eq_or_of_and_eq_zero _ _ (BitVec.eq_of_getLsbD_eq fun j _ => ?_)
  rw [BitVec.getLsbD_and, getLsbD_align, BitVec.getLsbD_zero]
  by_cases hj : w.lowBits ≤ j
  · rw [getLsbD_laneNumber hk hj, Bool.and_false]
  · simp [hj]

/-- The bits of a byte's address above its number in the access. -/
theorem getLsbD_align_add {w : Width} {k j : Nat} (a : Word) (hk : k < w.bytes) (hj : 2 ≤ j) :
    (w.align a + BitVec.ofNat 32 k).getLsbD j = a.getLsbD j := by
  have hw : w.lowBits ≤ j := le_trans w.lowBits_le hj
  rw [align_add_eq_or a hk, BitVec.getLsbD_or, getLsbD_laneNumber hk hw, getLsbD_align]
  simp [hw]

/-- A mask that keeps the two low bits commutes with the step to a byte of an access. -/
theorem toNat_align_add_and {w : Width} {k : Nat} {m : Word} (a : Word) (hk : k < w.bytes) (hm : 3#32 &&& m = 3#32) :
    ((w.align a + BitVec.ofNat 32 k) &&& m).toNat = (w.align a &&& m).toNat + k := by
  have hlane : BitVec.ofNat 32 k &&& m = BitVec.ofNat 32 k := by
    have h3 : BitVec.ofNat 32 k &&& 3#32 = BitVec.ofNat 32 k := by
      cases w <;> simp only [Width.bytes] at hk <;> interval_cases k <;> rfl
    rw [← h3, BitVec.and_assoc, hm]
  have halign : w.align a &&& m = w.align (a &&& m) := by
    refine BitVec.eq_of_getLsbD_eq fun j _ => ?_
    rw [BitVec.getLsbD_and, getLsbD_align, getLsbD_align, BitVec.getLsbD_and, Bool.and_right_comm]
  rw [align_add_eq_or a hk, BitVec.and_or_distrib_right, hlane, halign, ← align_add_eq_or _ hk, toNat_align_add _ hk]

/-! ## Regions and keys (R71, R78, R80) -/

theorem regionOf_congr {a b : Word} (h : ∀ j, 24 ≤ j → a.getLsbD j = b.getLsbD j) : regionOf a = regionOf b := by
  have htop : a.extractLsb' 24 8 = b.extractLsb' 24 8 := by
    refine BitVec.eq_of_getLsbD_eq fun j _ => ?_
    rw [BitVec.getLsbD_extractLsb', BitVec.getLsbD_extractLsb', h _ (Nat.le_add_right _ _)]
  rw [regionOf, regionOf, htop]

/-- Every byte of an access lies in the region of its address. -/
theorem regionOf_align_add {w : Width} {k : Nat} (a : Word) (hk : k < w.bytes) :
    regionOf (w.align a + BitVec.ofNat 32 k) = regionOf a :=
  regionOf_congr fun _ hj => getLsbD_align_add a hk (le_trans (by decide) hj)

@[simp] theorem regionOf_align (w : Width) (a : Word) : regionOf (w.align a) = regionOf a := by
  have h := regionOf_align_add (w := w) (k := 0) a (by cases w <;> decide)
  rwa [BitVec.add_zero] at h

theorem offsetOf_eq (a : Word) : offsetOf a = a.toNat % 2 ^ 24 := by
  simp [offsetOf]

theorem offsetOf_align_add {w : Width} {k : Nat} (a : Word) (hk : k < w.bytes) :
    offsetOf (w.align a + BitVec.ofNat 32 k) = offsetOf (w.align a) + k := by
  have h : ∀ x : Word, offsetOf x = (x &&& 0xFFFFFF#32).toNat := fun x => by
    rw [offsetOf_eq, toNat_and_mask (n := 24) x rfl]
  rw [h, h, toNat_align_add_and a hk rfl]

theorem romIndex_align_add {w : Width} {k : Nat} (a : Word) (hk : k < w.bytes) :
    romIndex (w.align a + BitVec.ofNat 32 k) = romIndex (w.align a) + k :=
  toNat_align_add_and a hk rfl

/-- The regions that `ramKey` numbers (R71, R78). -/
def Region.isRam (g : Region) : Prop :=
  g = .ewram ∨ g = .iwram ∨ g = .pal ∨ g = .vram ∨ g = .oam

theorem ramKey_align_add {w : Width} {k : Nat} (a : Word) (hk : k < w.bytes) (hr : (regionOf a).isRam) :
    ramKey (w.align a + BitVec.ofNat 32 k) = ramKey (w.align a) + k := by
  have hbit : (w.align a + BitVec.ofNat 32 k).getLsbD 16 = (w.align a).getLsbD 16 := by
    rw [getLsbD_align_add a hk (by decide), getLsbD_align]
    simp [le_trans w.lowBits_le (by decide : 2 ≤ 16)]
  unfold ramKey
  rw [regionOf_align_add a hk, regionOf_align, hbit]
  rcases hr with h | h | h | h | h <;> rw [h]
  all_goals simp only [Nat.add_assoc]
  · rw [toNat_align_add_and a hk rfl]
  · rw [toNat_align_add_and a hk rfl]
  · rw [toNat_align_add_and a hk rfl]
  · rw [toNat_align_add_and a hk (by split <;> rfl)]
  · rw [toNat_align_add_and a hk rfl]

/-! ## Lanes and values (R70) -/

theorem toNat_lane (v : Word) (k : Nat) : (lane v k).toNat = v.toNat / 256 ^ k % 256 := by
  rw [lane, BitVec.extractLsb'_toNat, Nat.shiftRight_eq_div_pow, Nat.pow_mul]

theorem toNat_assemble_lt (w : Width) (f : Nat → Byte) : (assemble w f).toNat < 256 ^ w.bytes := by
  have byte : ∀ k, ((f k).setWidth 32).toNat < 256 := fun k => by
    rw [BitVec.toNat_setWidth_of_le (by decide)]; exact (f k).isLt
  cases w
  · exact byte 0
  · refine Nat.or_lt_two_pow (n := 16) (lt_trans (byte 0) (by decide)) ?_
    have := byte 1
    rw [BitVec.toNat_shiftLeft, Nat.shiftLeft_eq]
    omega
  · exact (assemble .word f).isLt

/-- A value that fits an access is the little-endian sum of its lanes. -/
theorem toNat_eq_sum_lanes {w : Width} {v : Word} (h : v.toNat < 256 ^ w.bytes) :
    v.toNat = ((List.range w.bytes).map fun k => 256 ^ k * (lane v k).toNat).sum := by
  simp only [toNat_lane]
  cases w <;> simp only [Width.bytes] at h ⊢ <;> simp [List.range_succ] <;> omega

theorem toNat_assemble (w : Width) (f : Nat → Byte) :
    (assemble w f).toNat = ((List.range w.bytes).map fun k => 256 ^ k * (f k).toNat).sum := by
  rw [toNat_eq_sum_lanes (toNat_assemble_lt w f)]
  refine congrArg List.sum (List.map_congr_left fun k hk => ?_)
  rw [lane_assemble w f k (List.mem_range.mp hk)]

/-- The lanes of a value put together again. -/
theorem assemble_lane (w : Width) (v : Word) : assemble w (lane v) = BitVec.ofNat 32 (v.toNat % 256 ^ w.bytes) := by
  refine BitVec.eq_of_toNat_eq ?_
  rw [toNat_assemble, BitVec.toNat_ofNat]
  simp only [toNat_lane]
  cases w <;> simp only [Width.bytes] <;> simp [List.range_succ] <;> omega

/-! ## What a read gives (R89, R90) -/

theorem readRaw_of_window {b : Bus} {a : Word} {w : Width} (h : eepromWindow b (w.align a) false = true) (r15 : Word) :
    readRaw b r15 a w = (BitVec.ofBool b.eeprom.readBit).setWidth 32 :=
  if_pos h

theorem readRaw_of_no_window {b : Bus} {a : Word} {w : Width} (h : eepromWindow b (w.align a) false = false) (r15 : Word) :
    readRaw b r15 a w = assemble w (readLane b r15 (w.align a) w) :=
  if_neg (by rw [h]; decide)

theorem readRaw_of_not_rom {a : Word} (h : regionOf a ≠ .rom) (b : Bus) (r15 : Word) (w : Width) :
    readRaw b r15 a w = assemble w (readLane b r15 (w.align a) w) :=
  readRaw_of_no_window (eepromWindow_of_not_rom b _ false (by rwa [regionOf_align])) r15

theorem afterRead_of_not_rom {a : Word} (h : regionOf a ≠ .rom) (b : Bus) (w : Width) : afterRead b a w = b := by
  rw [afterRead, eepromWindow_of_not_rom b _ false (by rwa [regionOf_align])]
  rfl

theorem toNat_readRaw_lt (b : Bus) (r15 a : Word) (w : Width) : (readRaw b r15 a w).toNat < 256 ^ w.bytes := by
  cases hw : eepromWindow b (w.align a) false with
  | false =>
    rw [readRaw_of_no_window hw]
    exact toNat_assemble_lt w _
  | true =>
    rw [readRaw_of_window hw]
    exact lt_of_lt_of_le (by cases b.eeprom.readBit <;> decide : _ < 256) (by cases w <;> decide)

/-- An access ignores the low bits of its address (R89). -/
theorem readRaw_align (b : Bus) (r15 a : Word) (w : Width) : readRaw b r15 (w.align a) w = readRaw b r15 a w := by
  have h : w.align (w.align a) = w.align a := BitVec.eq_of_toNat_eq <| by
    rw [toNat_align, toNat_align, Nat.mul_div_cancel _ (by cases w <;> decide)]
  rw [readRaw, readRaw, h]

/-- Settles O44: the rotation is by the address bits that the access ignores. -/
theorem loadRotation : Obligations.LoadRotation := by
  intro s a
  refine ⟨?_, ?_, rfl, toNat_readRaw_lt s.bus s.r15 a .half, toNat_readRaw_lt s.bus s.r15 a .byte, fun h => ?_⟩
  · show BitVec.rotateRight _ (8 * (a &&& 3#32).toNat) = _
    rw [toNat_and_mask (n := 2) a rfl]
    rfl
  · show BitVec.rotateRight _ (8 * (a &&& 1#32).toNat) = _
    rw [toNat_and_mask (n := 1) a rfl]
    rfl
  · have hread : s.readRaw 0x03000001#32 .word = 0xDEADBEEF#32 := h
    rw [State.memRead, hread]
    decide

/-! ## Little-endian reads (R70) -/

/-- A bound at a word boundary holds for every byte of an access or for none. -/
theorem offsetOf_align_add_lt {w : Width} {k n : Nat} (a : Word) (hk : k < w.bytes) (hn : 4 ∣ n) :
    offsetOf (w.align a + BitVec.ofNat 32 k) < n ↔ offsetOf (w.align a) < n := by
  obtain ⟨m, rfl⟩ := hn
  rw [offsetOf_align_add a hk, offsetOf_eq, toNat_align]
  cases w <;> simp only [Width.bytes] at hk ⊢ <;> omega

theorem biosPermitted_align_add {w : Width} {k : Nat} (r15 a : Word) (hk : k < w.bytes) :
    biosPermitted r15 (w.align a + BitVec.ofNat 32 k) = biosPermitted r15 (w.align a) := by
  rw [biosPermitted, biosPermitted, decide_eq_decide.mpr (offsetOf_align_add_lt a hk (by decide))]

/-- Byte `k` of an access is the byte at the address `k` further, where an access has no value of its own. -/
theorem readLane_byte {b : Bus} {a : Word} {w : Width} {k : Nat} (r15 : Word) (hk : k < w.bytes)
    (hmap : regionOf a ≠ .unmapped) (hrom : regionOf a = .rom → romIndex (w.align a) + w.bytes ≤ b.params.romSize) :
    readLane b r15 (w.align a + BitVec.ofNat 32 k) .byte 0 = readLane b r15 (w.align a) w k := by
  have ram (hr : (regionOf a).isRam) : ramKey (w.align a + BitVec.ofNat 32 k) + 0 = ramKey (w.align a) + k :=
    ramKey_align_add a hk hr
  unfold readLane
  rw [regionOf_align_add a hk, regionOf_align]
  cases hr : regionOf a
  case unmapped => exact absurd hr hmap
  case bios =>
    show (if biosPermitted _ _ then _ else _) = if biosPermitted _ _ then _ else _
    rw [biosPermitted_align_add r15 a hk, offsetOf_align_add a hk, toNat_align_add_and a hk rfl]
    rfl
  case io =>
    show (if _ ≤ _ then ioReadByte b _ else _) = if _ ≤ _ then ioReadByte b _ else _
    rw [if_congr (Nat.lt_succ_iff.symm.trans ((offsetOf_align_add_lt a hk (by decide)).trans Nat.lt_succ_iff)) rfl rfl,
      offsetOf_align_add a hk]
    rfl
  case rom =>
    have hin := hrom hr
    show romByte b _ .byte 0 = romByte b _ w k
    rw [romByte, romByte, romIndex_align_add a hk, if_pos (by omega), if_pos (by omega)]
    rfl
  case backup => exact congrArg (backupReadByte b) (toNat_align_add_and a hk rfl)
  case ewram => exact congrArg b.mem.read (ram (.inl hr))
  case iwram => exact congrArg b.mem.read (ram (.inr (.inl hr)))
  case pal => exact congrArg b.mem.read (ram (.inr (.inr (.inl hr))))
  case vram => exact congrArg b.mem.read (ram (.inr (.inr (.inr (.inl hr)))))
  case oam => exact congrArg b.mem.read (ram (.inr (.inr (.inr (.inr hr)))))

/-- Settles O45: lane `k` of the access is the byte at the address `k` further. -/
theorem readsAreLittleEndian : Obligations.ReadsAreLittleEndian := by
  intro b r15 a w hwin hmap hrom
  have hfirst : eepromWindow b (w.align a) false = false := by
    have h := hwin 0 (by cases w <;> decide)
    rwa [BitVec.add_zero] at h
  rw [readRaw_of_no_window hfirst, toNat_assemble]
  refine congrArg List.sum (List.map_congr_left fun k hk => ?_)
  have hk : k < w.bytes := List.mem_range.mp hk
  have hbyte : readRaw b r15 (w.align a + BitVec.ofNat 32 k) .byte = (readLane b r15 (w.align a) w k).setWidth 32 := by
    rw [← readLane_byte r15 hk hmap hrom]
    exact readRaw_of_no_window (w := .byte) (hwin k hk) r15
  rw [hbyte, BitVec.toNat_setWidth_of_le (by decide)]

/-! ## The BIOS region (R72, R76) -/

theorem toNat_lt_of_bios {a : Word} (h : regionOf a = .bios) : a.toNat < 2 ^ 24 := by
  have htop : a.extractLsb' 24 8 = 0#8 := by
    unfold regionOf at h
    revert h
    generalize a.extractLsb' 24 8 = t
    revert t
    decide
  have h := congrArg BitVec.toNat htop
  rw [BitVec.extractLsb'_toNat, Nat.shiftRight_eq_div_pow] at h
  have := a.isLt
  simp at h
  omega

theorem offsetOf_of_bios {a : Word} (h : regionOf a = .bios) : offsetOf a = a.toNat := by
  rw [offsetOf_eq, Nat.mod_eq_of_lt (toNat_lt_of_bios h)]

theorem biosPermitted_iff {r15 a : Word} (h : regionOf a = .bios) :
    biosPermitted r15 a = true ↔ a.toNat < 0x4000 ∧ r15.toNat < 0x4000 := by
  rw [biosPermitted, offsetOf_of_bios h, Bool.and_eq_true, decide_eq_true_iff, decide_eq_true_iff, BitVec.lt_def]
  rfl

theorem readLane_of_bios {a : Word} (h : regionOf a = .bios) (b : Bus) (r15 : Word) (w : Width) (k : Nat) :
    readLane b r15 a w k =
      if a.toNat < 0x4000 ∧ r15.toNat < 0x4000 then b.params.bios.read (a.toNat + k) else lane b.biosBus (a.toNat % 4 + k) := by
  unfold readLane
  rw [h]
  show (if biosPermitted r15 a = true then _ else _) = _
  rw [if_congr (biosPermitted_iff h) rfl rfl, offsetOf_of_bios h, toNat_and_mask (n := 2) a rfl]
  rfl

theorem readRaw_of_bios {a : Word} (h : regionOf a = .bios) (b : Bus) (r15 : Word) (w : Width) :
    readRaw b r15 a w = assemble w (readLane b r15 (w.align a) w) :=
  readRaw_of_not_rom (by rw [h]; decide) b r15 w

theorem busWrite_of_bios {a : Word} (h : regionOf a = .bios) (b : Bus) (r15 v : Word) (w : Width) :
    busWrite r15 a w v b = b := by
  have hwin := eepromWindow_of_not_rom b (w.align a) true (by rw [regionOf_align, h]; decide)
  simp only [busWrite, writeWith, regionOf_align, h, hwin, Bool.false_eq_true, if_false]

/-- A permitted fetch sets the BIOS bus latch to the word around its address and changes nothing else (R76). -/
theorem afterFetch_of_bios {a : Word} (h : regionOf a = .bios) (ha : a.toNat < 0x4000) (b : Bus) (f : Width) :
    afterFetch b a f = { b with biosBus := readRaw b a a .word } := by
  have hf : regionOf (f.align a) = .bios := by rw [regionOf_align, h]
  have hword : regionOf (Width.word.align a) = .bios := by rw [regionOf_align, h]
  have inside (w : Width) : (w.align a).toNat < 0x4000 ∧ a.toNat < 0x4000 :=
    ⟨by rw [toNat_align]; exact lt_of_le_of_lt (Nat.div_mul_le_self _ _) ha, ha⟩
  have hfetch : afterFetch b a f = { b with biosBus := biosWord b.params (offsetOf (f.align a)) } := by
    rw [afterFetch, afterRead_of_not_rom (by rw [h]; decide)]
    exact if_pos ⟨hf, (biosPermitted_iff hf).mpr (inside f)⟩
  have hindex : offsetOf (f.align a) / 4 * 4 = (Width.word.align a).toNat := by
    rw [offsetOf_of_bios hf, toNat_align, toNat_align]
    cases f <;> simp only [Width.bytes] <;> omega
  rw [hfetch, readRaw_of_bios h, biosWord, readBytes, hindex]
  congr 1
  refine assemble_congr .word fun k _ => ?_
  rw [readLane_of_bios hword, if_pos (inside .word)]

/-- Settles O47: what the region gives, lane by lane, and what leaves it alone. -/
theorem biosProtection : Obligations.BiosProtection := by
  intro b r15 a v w h off
  have haligned : regionOf (w.align a) = .bios := by rw [regionOf_align, h]
  have hlane (k : Nat) (hk : k < w.bytes) : lane (readRaw b r15 a w) k = readLane b r15 (w.align a) w k := by
    rw [readRaw_of_bios h, lane_assemble w _ k hk]
  refine ⟨fun hin k hk => ?_, fun hout k hk => ?_, afterRead_of_not_rom (by rw [h]; decide) b w, busWrite_of_bios h b r15 v w,
    fun f ha _ => ?_⟩
  · rw [hlane k hk, readLane_of_bios haligned, if_pos hin]
  · rw [hlane k hk, readLane_of_bios haligned, if_neg hout]
  · rw [afterFetch_of_bios h ha b f]
    exact ⟨(readRaw_align b a a .word).symm, rfl⟩

end Sys2Proof.Machine
end

section
/-! The Flash device: what a fill stores, the branches of a byte write, the command table, the backup window (spec
`21_backup.md` R141-R151). -/

namespace Sys2Proof

/-! ## What a fill reads as -/

theorem Memory.read_of_unlisted {m : Memory} {i : Nat} (h : ∀ c ∈ m, c.1 ≠ i) : m.read i = unlisted := by
  induction m with
  | nil => rfl
  | cons c rest ih =>
    rw [Memory.read, if_neg (h c (List.mem_cons_self ..))]
    exact ih fun d hd => h d (List.mem_cons_of_mem _ hd)

theorem Memory.read_of_mem {m : Memory} {i : Nat} {v : Byte} (h : m.wf) (hc : (i, v) ∈ m) : m.read i = v := by
  induction m with
  | nil => cases hc
  | cons c rest ih =>
    obtain ⟨hlt, hrest⟩ := List.pairwise_cons.mp h.1
    rcases List.mem_cons.mp hc with rfl | hc
    · exact if_pos rfl
    · rw [Memory.read, if_neg (hlt _ hc).ne]
      exact ih ⟨hrest, fun d hd => h.2 d (List.mem_cons_of_mem _ hd)⟩ hc

/-- Every index is listed with the byte it reads as, or reads as an unlisted one. -/
theorem Memory.mem_read_or (m : Memory) (i : Nat) : (i, m.read i) ∈ m ∨ ∀ c ∈ m, c.1 ≠ i := by
  induction m with
  | nil => exact .inr fun c hc => by cases hc
  | cons c rest ih =>
    obtain ⟨k, u⟩ := c
    by_cases hk : k = i
    · left; rw [Memory.read, if_pos hk, hk]; exact List.mem_cons_self ..
    · rw [Memory.read, if_neg hk]
      exact ih.imp (List.mem_cons_of_mem _) fun h d hd => (List.mem_cons.mp hd).elim (fun e => e ▸ hk) (h d)

theorem Memory.mem_fill_iff (m : Memory) (lo n : Nat) (v : Byte) (c : Host.Cell) :
    c ∈ m.fill lo n v ↔
      (c ∈ m ∧ (c.1 < lo ∨ lo + n ≤ c.1)) ∨ (v ≠ unlisted ∧ c.2 = v ∧ lo ≤ c.1 ∧ c.1 < lo + n) := by
  obtain ⟨i, u⟩ := c
  have hmid : (i, u) ∈ (if v = unlisted then [] else (List.range' lo n).map fun i => (i, v)) ↔
      v ≠ unlisted ∧ u = v ∧ lo ≤ i ∧ i < lo + n := by
    split
    · simp [*]
    · simp [*, eq_comm, and_comm]
  simp only [Memory.fill, List.mem_append, List.mem_filter, decide_eq_true_eq, hmid]
  tauto

theorem Memory.read_fill {m : Memory} (h : m.wf) (lo n : Nat) (v : Byte) (i : Nat) :
    (m.fill lo n v).read i = if lo ≤ i ∧ i < lo + n then v else m.read i := by
  have hwf := Memory.fill_wf m lo n v h
  split
  case isTrue hin =>
    by_cases hv : v = unlisted
    · rw [hv]
      refine Memory.read_of_unlisted fun c hc => ?_
      rcases (Memory.mem_fill_iff ..).mp hc with ⟨_, hout⟩ | ⟨hne, _⟩
      · omega
      · exact absurd rfl hne
    · exact Memory.read_of_mem hwf ((Memory.mem_fill_iff ..).mpr (.inr ⟨hv, rfl, hin⟩))
  case isFalse hout =>
    rcases m.mem_read_or i with hm | hm
    · exact Memory.read_of_mem hwf ((Memory.mem_fill_iff ..).mpr (.inl ⟨hm, by omega⟩))
    · rw [Memory.read_of_unlisted hm]
      refine Memory.read_of_unlisted fun c hc => ?_
      rcases (Memory.mem_fill_iff ..).mp hc with ⟨hc, _⟩ | ⟨_, _, hin⟩
      · exact hm c hc
      · rintro rfl; exact hout hin

namespace Machine

/-! ## The branches of a byte write (R142, R144) -/

variable {f : Flash}

theorem Flash.writeByte_pending (h : f.mode = .write) (a : Nat) (v : Byte) :
    f.writeByte a v = { f with store := f.store.write (f.index a) v, mode := .idle, guard := 0 } :=
  if_pos h

theorem Flash.writeByte_selects (h : f.mode = .bankSwitch) (v : Byte) :
    f.writeByte 0 v = { f with bank := v.getLsbD 0, mode := .idle, guard := 0 } := by
  simp [Flash.writeByte, h]

theorem Flash.writeByte_command (hm : f.mode ≠ .write) (hg : f.guard = 2) (v : Byte) :
    f.writeByte 0x5555 v = { f.command v with guard := 0 } := by
  simp [Flash.writeByte, hm, hg]

theorem Flash.writeByte_erases (hm : f.mode = .erase) (hg : f.guard = 2) {a : Nat} (ha : a ≠ 0x5555) :
    f.writeByte a 0x30#8 =
      { f with store := f.store.fill (f.index (a / 0x1000 * 0x1000)) 0x1000 0xFF#8, mode := .idle, guard := 0 } := by
  simp [Flash.writeByte, hm, hg, ha]

theorem Flash.writeByte_guards (hm : f.mode ≠ .write) {a : Nat} (ha : f.mode = .bankSwitch → a ≠ 0) (hg : f.guard ≠ 2)
    (v : Byte) : f.writeByte a v = f.guardStep a v := by
  have hbank : ¬ (f.mode = .bankSwitch ∧ a = 0) := fun h => ha h.1 h.2
  simp only [Flash.writeByte, hm, hbank, hg, false_and, if_false]

/-- A step of the guard sequence changes the guard alone. -/
theorem Flash.guardStep_eq (f : Flash) (a : Nat) (v : Byte) : ∃ g, f.guardStep a v = { f with guard := g } := by
  unfold Flash.guardStep
  split
  · exact ⟨_, rfl⟩
  · split <;> exact ⟨_, rfl⟩

/-! ## Commands (R146, R147) -/

theorem flashCommand_eq (hm : f.mode ≠ .write) (hg : f.guard ≠ 2) (v : Byte) :
    flashCommand f v = { Flash.command { f with guard := 2 } v with guard := 0 } := by
  have h1 : f.writeByte 0x5555 0xAA#8 = { f with guard := 1 } := by
    rw [Flash.writeByte_guards hm (fun _ => by decide) hg]; rfl
  have h2 : Flash.writeByte { f with guard := 1 } 0x2AAA 0x55#8 = { f with guard := 2 } := by
    rw [Flash.writeByte_guards (f := { f with guard := 1 }) hm (fun _ => by decide) (show (1 : Fin 3) ≠ 2 by decide)]; rfl
  rw [flashCommand, h1, h2]
  exact Flash.writeByte_command (f := { f with guard := 2 }) hm rfl v

/-- The mode that a command leaves (R146, R147). -/
def Flash.commandMode (f : Flash) (v : Byte) : FlashMode :=
  if v = 0x80#8 then .erase else if v = 0xA0#8 then .write else if v = 0xB0#8 then .bankSwitch
  else if v = 0x10#8 ∧ f.mode = .erase then .idle else f.mode

/-- The id mode that a command leaves (R146). -/
def Flash.commandIdMode (f : Flash) (v : Byte) : Bool :=
  if v = 0x90#8 then true else if v = 0xF0#8 then false else f.idMode

/-- The bytes that a command leaves: a chip erase fills both banks (R147). -/
def Flash.commandStore (f : Flash) (v : Byte) : Memory :=
  if v = 0x10#8 ∧ f.mode = .erase then f.store.fill 0 0x20000 0xFF#8 else f.store

/-- The command table field by field. -/
theorem Flash.commandEffect_eq (f : Flash) (v : Byte) :
    f.commandEffect v = { f with mode := f.commandMode v, idMode := f.commandIdMode v, store := f.commandStore v } := by
  unfold Flash.commandEffect
  split
  case h_1 hv => rw [show v = 0x80#8 from BitVec.eq_of_toNat_eq hv]; rfl
  case h_2 hv => rw [show v = 0x90#8 from BitVec.eq_of_toNat_eq hv]; rfl
  case h_3 hv => rw [show v = 0xA0#8 from BitVec.eq_of_toNat_eq hv]; rfl
  case h_4 hv => rw [show v = 0xB0#8 from BitVec.eq_of_toNat_eq hv]; rfl
  case h_5 hv => rw [show v = 0xF0#8 from BitVec.eq_of_toNat_eq hv]; rfl
  case h_6 hv =>
    rw [show v = 0x10#8 from BitVec.eq_of_toNat_eq hv]
    by_cases he : f.mode = .erase <;> simp [commandMode, commandIdMode, commandStore, he]
  case h_7 h80 h90 hA0 hB0 hF0 h10 =>
    have ne (k : Byte) (hk : v.toNat ≠ k.toNat) : v ≠ k := fun h => hk (congrArg BitVec.toNat h)
    simp [commandMode, commandIdMode, commandStore, ne 0x80#8 h80, ne 0x90#8 h90, ne 0xA0#8 hA0, ne 0xB0#8 hB0,
      ne 0xF0#8 hF0, ne 0x10#8 h10]

/-- A command that leaves a mode or the id mode on marks the device used (R151). -/
theorem Flash.command_eq (f : Flash) (v : Byte) :
    f.command v = { f with
      mode := f.commandMode v
      idMode := f.commandIdMode v
      store := f.commandStore v
      used := f.used || decide (f.commandMode v ≠ .idle ∨ f.commandIdMode v = true) } := by
  rw [Flash.command, Flash.commandEffect_eq, Flash.noteUse]
  split
  case isTrue h => simp only [decide_eq_true h, Bool.or_true]
  case isFalse h => simp only [decide_eq_false h, Bool.or_false]

/-! ## The backup window (R82, R141) -/

/-- A byte access to the backup window is one of its device. -/
theorem byteAccess_of_backup {a : Word} (h : regionOf a = .backup) (b : Bus) (r15 v : Word) :
    busWrite r15 a .byte v b = backupWriteByte (a.toNat % 0x10000) (v.setWidth 8) b ∧
    readRaw b r15 a .byte = (backupReadByte b (a.toNat % 0x10000)).setWidth 32 := by
  have hrom : regionOf a ≠ .rom := by rw [h]; decide
  have hoff : (a &&& 0xFFFF#32).toNat = a.toNat % 0x10000 := toNat_and_mask (n := 16) a rfl
  constructor
  · have hlane : lane v 0 = v.setWidth 8 := (BitVec.setWidth_eq_extractLsb' (by decide)).symm
    simp only [busWrite, writeWith, Width.align, eepromWindow_of_not_rom b a true hrom, h, eachLane, hoff, hlane]
    rfl
  · rw [readRaw_of_not_rom hrom, ← hoff]
    simp only [assemble, Width.align, readLane, h]
    rfl

/-! ## A pending write and a command, field by field (R146-R149) -/

/-- A write that is pending stores the next byte (R149). -/
theorem Flash.read_writeByte_pending (hwf : f.store.wf) (hm : f.mode = .write) (a : Nat) (v : Byte) :
    (f.writeByte a v).store.read (f.index a) = v ∧
    ∀ i, i ≠ f.index a → (f.writeByte a v).store.read i = f.store.read i := by
  rw [Flash.writeByte_pending hm]
  exact ⟨Memory.read_write_same _ _ _ hwf, fun i hi => Memory.read_write_other _ _ hi⟩

/-- A command byte after its guard sequence, field by field (R146, R147). -/
theorem flashCommand_table (hm : f.mode ≠ .write) (hg : f.guard ≠ 2) (v : Byte) :
    flashCommand f v =
      { store := f.commandStore v, mode := f.commandMode v, idMode := f.commandIdMode v, bank := f.bank, guard := 0,
        used := f.used || decide (f.commandMode v ≠ .idle ∨ f.commandIdMode v = true) } := by
  rw [flashCommand_eq hm hg, Flash.command_eq]
  rfl

/-- Settles O57: each part by the branch of the byte write that it names. -/
theorem flashCommands : Obligations.FlashCommands := by
  refine ⟨fun b r15 a v h => ?_, fun b a => rfl, fun f a v hwf hm => ?_, fun f v hwf hm hg => ?_, fun f a v hwf hm hg => ?_,
    fun f a hwf hm hg ha h5 => ?_, fun f a v hm => ?_⟩
  · obtain ⟨hwrite, hread⟩ := byteAccess_of_backup h b r15 v
    exact ⟨hwrite, rfl, hread⟩
  · obtain ⟨hsame, hother⟩ := Flash.read_writeByte_pending hwf hm a v
    exact ⟨hsame, hother, by rw [Flash.writeByte_pending hm]⟩
  · rw [flashCommand_table hm hg]
    refine ⟨rfl, rfl, ?_, rfl, rfl, fun h10 he i => ?_, fun h => if_neg h⟩
    · simp
    · simp [Flash.commandStore, h10, he, Memory.read_fill hwf]
  · have hA0 : flashCommand f 0xA0#8 = { f with mode := .write, used := true, guard := 0 } := by
      rw [flashCommand_table hm hg]
      simp [Flash.commandStore, Flash.commandMode, Flash.commandIdMode]
    rw [hA0]
    obtain ⟨hsame, hother⟩ :=
      Flash.read_writeByte_pending (f := { f with mode := .write, used := true, guard := 0 }) hwf rfl a v
    refine ⟨hsame, hother, ?_⟩
    rw [Flash.writeByte_pending rfl]
    exact ⟨rfl, rfl, rfl, rfl, rfl⟩
  · rw [Flash.writeByte_erases hm hg h5]
    exact ⟨fun i => Memory.read_fill hwf .., rfl, rfl, rfl, rfl, rfl⟩
  · have hselect (ha : a = 0) : f.writeByte a v = { f with bank := v.getLsbD 0, mode := .idle, guard := 0 } := by
      rw [ha, Flash.writeByte_selects hm]
    have hguard (ha : a ≠ 0) (hg : f.guard ≠ 2) : ∃ g, f.writeByte a v = { f with guard := g } := by
      rw [Flash.writeByte_guards (by simp [hm]) (fun _ => ha) hg]
      exact f.guardStep_eq a v
    refine ⟨fun ha => ?_, fun ha hg => ?_, fun h => ?_⟩
    · rw [hselect ha]
      exact ⟨rfl, rfl, rfl⟩
    · obtain ⟨g, hg'⟩ := hguard ha hg
      rw [hg']
      exact ⟨rfl, hm⟩
    · by_cases ha : a = 0
      · rw [hselect ha]
        exact ⟨rfl, rfl, rfl⟩
      · obtain ⟨g, hg'⟩ := hguard ha (h.resolve_left ha)
        rw [hg']
        exact ⟨rfl, rfl, rfl⟩

end Machine
end Sys2Proof
end

section
/-! What plain storage, SRAM and the EEPROM read back: plain stores, the bits of a request and its completion (spec
`20_memory.md` R86, R91; `21_backup.md` R143, R160-R162). -/

namespace Sys2Proof.Machine

/-! ## Plain storage (R86, R91) -/

theorem storesPlainly_cases {a : Word} {w : Width} (h : storesPlainly a w = true) :
    regionOf a = .ewram ∨ regionOf a = .iwram ∨
      (w ≠ .byte ∧ (regionOf a = .pal ∨ regionOf a = .vram ∨ regionOf a = .oam)) := by
  unfold storesPlainly at h
  cases hr : regionOf a <;> rw [hr] at h <;> simp_all

theorem storesPlainly_ne_rom {a : Word} {w : Width} (h : storesPlainly a w = true) : regionOf a ≠ .rom := by
  rcases storesPlainly_cases h with hr | hr | ⟨_, hr | hr | hr⟩ <;> rw [hr] <;> decide

theorem readLane_of_plain {a : Word} {w : Width} (h : storesPlainly a w = true) (b : Bus) (r15 : Word) (k : Nat) :
    readLane b r15 a w k = b.mem.read (ramKey a + k) := by
  unfold readLane
  rcases storesPlainly_cases h with hr | hr | ⟨_, hr | hr | hr⟩ <;> rw [hr]

theorem writeVideo_of_ne_byte {w : Width} (h : w ≠ .byte) (m : Memory) (a v : Word) :
    writeVideo m a w v = writeBytes m (ramKey a) w v := by
  cases w
  · exact absurd rfl h
  · rfl
  · rfl

theorem writeWith_of_plain {addr : Word} {w : Width} (h : storesPlainly (w.align addr) w = true) (m : BusMaster)
    (edge : Fin 4 → Bus → Bus) (r15 v : Word) (b : Bus) :
    writeWith m edge r15 addr w v b = { b with mem := writeBytes b.mem (ramKey (w.align addr)) w v } := by
  have hwin := eepromWindow_of_not_rom b _ true (storesPlainly_ne_rom h)
  simp only [writeWith, hwin, Bool.false_eq_true, if_false]
  rcases storesPlainly_cases h with hr | hr | ⟨hw, hr | hr | hr⟩ <;> rw [hr]
  · simp only [writeVideo_of_ne_byte hw]
  · simp only [writeVideo_of_ne_byte hw]
  · simp only [if_neg hw]

/-- What plain storage reads back (R91). -/
theorem readRaw_memWrite_of_plain {s : State} {a : Word} {w : Width} (hwf : s.bus.mem.wf)
    (h : storesPlainly (w.align a) w = true) (v : Word) :
    (s.memWrite a w v).readRaw a w = BitVec.ofNat 32 (v.toNat % 256 ^ w.bytes) := by
  have hrom : regionOf a ≠ .rom := by rw [← regionOf_align w]; exact storesPlainly_ne_rom h
  rw [← assemble_lane, State.readRaw, readRaw_of_not_rom hrom]
  refine assemble_congr w fun k hk => ?_
  rw [readLane_of_plain h, State.memWrite_bus, busWrite, writeWith_of_plain h]
  exact read_writeBytes_same _ _ _ _ hwf k hk

/-! ## SRAM (R143) -/

/-- A byte in SRAM that completes no Flash command is read back. -/
theorem backupReadByte_backupWriteByte {b : Bus} (hwf : b.mem.wf) (hused : b.flash.used = false)
    (hid : b.flash.idMode = false) (hg : b.flash.guard ≠ 2) (hm : b.flash.mode = .idle) (a : Nat) (v : Byte) :
    backupReadByte (backupWriteByte a v b) a = v := by
  obtain ⟨g, hflash⟩ : ∃ g, b.flash.writeByte a v = { b.flash with guard := g } := by
    rw [Flash.writeByte_guards (by simp [hm]) (by simp [hm]) hg]
    exact b.flash.guardStep_eq a v
  simp only [backupWriteByte, hflash, backupReadByte, hid, hused, Bool.false_eq_true, false_and, if_false]
  exact Memory.read_write_same _ _ _ hwf

/-! ## Bits in the EEPROM window (R160) -/

theorem writeWith_of_window {b : Bus} {addr : Word} {w : Width} (h : eepromWindow b (w.align addr) true = true)
    (m : BusMaster) (edge : Fin 4 → Bus → Bus) (r15 v : Word) :
    writeWith m edge r15 addr w v b = { b with eeprom := b.eeprom.supplyBit m (v.getLsbD 0) } :=
  if_pos h

@[simp] theorem eepromWindow_afterRead (b : Bus) (addr : Word) (w : Width) (a : Word) :
    eepromWindow (afterRead b addr w) a true = eepromWindow b a true := by
  unfold afterRead
  split <;> rfl

/-- A unit of a DMA transfer into the window writes one bit. -/
theorem dmaUnit_eeprom {c : Fin 4} {b : Bus}
    (h : eepromWindow b ((b.io.dma.get c).width.align (b.io.dma.get c).dst) true = true)
    (edge : Fin 4 → Bus → Bus) (r15 : Word) :
    (dmaUnit edge r15 c b).eeprom = (afterRead b (b.io.dma.get c).src (b.io.dma.get c).width).eeprom.writeBit
      ((readRaw b r15 (b.io.dma.get c).src (b.io.dma.get c).width).getLsbD 0) := by
  rw [dmaUnit, writeWith_of_window ((eepromWindow_afterRead ..).trans h)]
  rfl

theorem getLsbD_mergeBits {n j : Nat} (hj : j < n) (mask old new : BitVec n) :
    (mergeBits mask old new).getLsbD j = if mask.getLsbD j then new.getLsbD j else old.getLsbD j := by
  rw [mergeBits, BitVec.getLsbD_or, BitVec.getLsbD_and, BitVec.getLsbD_and, BitVec.getLsbD_not]
  cases mask.getLsbD j <;> simp [hj]

variable (e : Eeprom) (bit : Bool)

@[simp] theorem Eeprom.shiftIn_used : (e.shiftIn bit).used = true := by
  unfold Eeprom.shiftIn
  by_cases h : e.idx < 256 <;> simp [h]

@[simp] theorem Eeprom.shiftIn_idx : (e.shiftIn bit).idx = if e.idx < 256 then e.idx + 1 else e.idx := by
  unfold Eeprom.shiftIn
  by_cases h : e.idx < 256 <;> simp [h]

theorem Eeprom.getLsbD_shiftIn_buf {j : Nat} (hj : j < 256) :
    (e.shiftIn bit).buf.getLsbD j = if j = e.idx then bit else e.buf.getLsbD j := by
  unfold Eeprom.shiftIn
  by_cases h : e.idx < 256
  · have hmask : (1#256 <<< e.idx).getLsbD j = decide (j = e.idx) := by
      rw [BitVec.getLsbD_shiftLeft, BitVec.getLsbD_one, Bool.eq_iff_iff]
      simp
      omega
    have hbit : ((BitVec.ofBool bit).setWidth 256 <<< e.idx).getLsbD e.idx = bit := by
      simp [h]
    simp only [h, if_true, getLsbD_mergeBits hj, hmask, decide_eq_true_eq]
    split
    case isTrue hj => rw [hj, hbit]
    case isFalse => rfl
  · have hne : j ≠ e.idx := by omega
    simp only [h, hne, if_false]

/-- A bit moves nothing but the buffer, its index and the mark of use. -/
theorem Eeprom.shiftIn_frame : { e.shiftIn bit with used := e.used, idx := e.idx, buf := e.buf } = e := by
  unfold Eeprom.shiftIn
  by_cases h : e.idx < 256 <;> simp [h]

/-! ## The bits of a request (R160, R161) -/

/-- The device after bits that complete no request. -/
def Eeprom.shiftBits (e : Eeprom) (bits : List Bool) : Eeprom :=
  bits.foldl Eeprom.shiftIn e

variable {e} {bits : List Bool}

/-- Each bit lands where the index stood. -/
theorem Eeprom.getLsbD_shiftBits_buf (h : e.idx + bits.length ≤ 256) {j : Nat} (hj : j < 256) :
    (e.shiftBits bits).buf.getLsbD j = if e.idx ≤ j then bits.getD (j - e.idx) (e.buf.getLsbD j) else e.buf.getLsbD j := by
  induction bits generalizing e with
  | nil => simp [Eeprom.shiftBits]
  | cons bit rest ih =>
    rw [List.length_cons] at h
    have hidx : (e.shiftIn bit).idx = e.idx + 1 := by rw [Eeprom.shiftIn_idx, if_pos (by omega)]
    have hrest := ih (e := e.shiftIn bit) (by omega)
    rw [hidx, e.getLsbD_shiftIn_buf bit hj] at hrest
    refine hrest.trans ?_
    rcases lt_trichotomy j e.idx with hlt | rfl | hgt
    · simp [Nat.not_le.mpr hlt, hlt.ne, Nat.not_le.mpr (Nat.lt_succ_of_lt hlt)]
    · simp
    · obtain ⟨d, rfl⟩ := Nat.exists_eq_add_of_lt hgt
      have h1 : e.idx + d + 1 - (e.idx + 1) = d := by omega
      have h2 : e.idx + d + 1 - e.idx = d + 1 := by omega
      simp [h1, h2, hgt.ne', hgt.le]

theorem Eeprom.shiftIn_eq (bit : Bool) (h : e.idx < 256) :
    e.shiftIn bit = { e with used := true, idx := e.idx + 1, buf := (e.shiftIn bit).buf } := by
  simp [Eeprom.shiftIn, h]

/-- Bits move the buffer, its index and the mark of use, and nothing else. -/
theorem Eeprom.shiftBits_eq (hbits : bits ≠ []) (h : e.idx + bits.length ≤ 256) :
    e.shiftBits bits = { e with used := true, idx := e.idx + bits.length, buf := (e.shiftBits bits).buf } := by
  induction bits generalizing e with
  | nil => exact absurd rfl hbits
  | cons bit rest ih =>
    rw [List.length_cons] at h
    have hin := e.shiftIn_eq bit (by omega)
    by_cases hrest : rest = []
    · subst hrest
      exact hin
    · have hidx : (e.shiftIn bit).idx + rest.length = e.idx + (rest.length + 1) := by rw [hin]; exact Nat.add_right_comm ..
      refine (ih hrest (by omega)).trans ?_
      rw [List.length_cons, hidx]
      exact congrArg (fun x : Eeprom =>
        { x with used := true, idx := e.idx + (rest.length + 1), buf := (e.shiftBits (bit :: rest)).buf }) hin

theorem Eeprom.writeBit_last (hlen : e.reqLen = some (e.idx + 1)) (h : e.idx < 256) (bit : Bool) :
    e.writeBit bit = (e.shiftIn bit).complete (e.idx + 1) := by
  have hin := e.shiftIn_eq bit h
  have hreq : (e.shiftIn bit).reqLen = some (e.idx + 1) := by rw [hin]; exact hlen
  have hidx : (e.shiftIn bit).idx = e.idx + 1 := by rw [hin]
  simp only [Eeprom.writeBit, hreq, hidx, if_true]

theorem Eeprom.writeBit_early {len : Nat} (hlen : e.reqLen = some len) (hne : e.idx + 1 ≠ len) (h : e.idx < 256) (bit : Bool) :
    e.writeBit bit = e.shiftIn bit := by
  have hin := e.shiftIn_eq bit h
  have hreq : (e.shiftIn bit).reqLen = some len := by rw [hin]; exact hlen
  have hidx : (e.shiftIn bit).idx = e.idx + 1 := by rw [hin]
  simp only [Eeprom.writeBit, hreq, hidx, if_neg hne]

/-- The bit that brings the index to the length of the request completes it, those before only accumulate. -/
theorem eepromRequest_eq (hbits : bits ≠ []) (hlen : e.reqLen = some (e.idx + bits.length))
    (hle : e.idx + bits.length ≤ 256) :
    eepromRequest e bits = (e.shiftBits bits).complete (e.idx + bits.length) := by
  induction bits generalizing e with
  | nil => exact absurd rfl hbits
  | cons bit rest ih =>
    rw [List.length_cons] at hlen hle ⊢
    by_cases hrest : rest = []
    · subst hrest
      exact e.writeBit_last hlen (by omega) bit
    · have hpos : 0 < rest.length := List.length_pos_of_ne_nil hrest
      have hin := e.shiftIn_eq bit (by omega)
      have hidx : (e.shiftIn bit).idx + rest.length = e.idx + (rest.length + 1) := by rw [hin]; exact Nat.add_right_comm ..
      have hreq : (e.shiftIn bit).reqLen = some ((e.shiftIn bit).idx + rest.length) := by rw [hidx, hin]; exact hlen
      calc eepromRequest e (bit :: rest)
        _ = eepromRequest (e.shiftIn bit) rest :=
          congrArg (eepromRequest · rest) (e.writeBit_early hlen (by omega) (by omega) bit)
        _ = ((e.shiftIn bit).shiftBits rest).complete (e.idx + (rest.length + 1)) := by
          rw [ih hrest hreq (by omega), hidx]

/-! ## The numbers in a request (R161, R162) -/

theorem bitsValue_concat (l : List Bool) (bit : Bool) : bitsValue (l ++ [bit]) = 2 * bitsValue l + bit.toNat := by
  simp [bitsValue]

/-- A field of the buffer is the number that the bits of the request give at its place. -/
theorem Eeprom.field_eq_bitsValue (hbuf : ∀ j, j < bits.length → e.buf.getLsbD j = bits.getD j false) (start : Nat) {n : Nat}
    (h : start + n ≤ bits.length) : e.field start n = bitsValue ((bits.drop start).take n) := by
  induction n with
  | zero => rfl
  | succ n ih =>
    have hlt : start + n < bits.length := by omega
    have hget : (bits.drop start)[n]? = some (bits.getD (start + n) false) := by
      rw [List.getElem?_drop, List.getElem?_eq_getElem hlt, List.getD_eq_getElem _ _ hlt]
    rw [List.take_add_one, hget, Option.toList_some, bitsValue_concat, ← ih (by omega), Eeprom.field, hbuf _ hlt]

/-- The two mode bits of a request (R161). -/
theorem bitsValue_take_two (h : 2 ≤ bits.length) (m : Bool) :
    bitsValue (bits.take 2) = 2 + m.toNat ↔ bits.take 2 = [true, m] := by
  match bits, h with
  | a :: b :: rest, _ => cases a <;> cases b <;> cases m <;> simp [bitsValue]

/-! ## The payload (R162) -/

theorem Eeprom.read_storePayload (hwf : e.store.wf) (base start n i : Nat) :
    (e.storePayload base start n).read i =
      if base ≤ i ∧ i < base + n then BitVec.ofNat 8 (e.field (start + 8 * (i - base)) 8) else e.store.read i := by
  induction n with
  | zero => rw [if_neg (by omega)]; rfl
  | succ n ih =>
    have hlast := Eeprom.storePayload_wf e base start n hwf
    rw [Eeprom.storePayload]
    by_cases hi : i = base + n
    · rw [hi, Memory.read_write_same _ _ _ hlast, if_pos (by omega), Nat.add_sub_cancel_left]
    · rw [Memory.read_write_other _ _ hi, ih]
      exact if_congr (by omega) rfl rfl

/-! ## The completion of a request (R162) -/

theorem Eeprom.complete_read {n : Nat} (hn : n = 6 ∨ n = 14) (hm : e.field 0 2 = 3) :
    e.complete (2 + n + 1) = { e with
      addrBits := some n
      addr := BitVec.ofNat 13 (e.field 2 n * 8)
      readAddr := BitVec.ofNat 13 (e.field 2 n * 8)
      readIdx := 0
      idx := 0 } := by
  rcases hn with rfl | rfl <;> simp [Eeprom.complete, eepromAddrBits, Eeprom.request, hm]

theorem Eeprom.complete_write {n : Nat} (hn : n = 6 ∨ n = 14) (hm : e.field 0 2 = 2) :
    e.complete (2 + n + 64 + 1) = { e with
      addrBits := some n
      addr := BitVec.ofNat 13 (e.field 2 n * 8)
      store := e.storePayload (BitVec.ofNat 13 (e.field 2 n * 8)).toNat (2 + n) 8
      readIdx := 68
      idx := 0 } := by
  rcases hn with rfl | rfl <;> simp [Eeprom.complete, eepromAddrBits, Eeprom.request, hm]

/-- A request of another length or mode is ignored. -/
theorem Eeprom.complete_ignored {len : Nat} (h : ∀ n, (n = 6 ∨ n = 14) →
    ¬ (e.field 0 2 = 3 ∧ len = 2 + n + 1) ∧ ¬ (e.field 0 2 = 2 ∧ len = 2 + n + 64 + 1)) :
    e.complete len = { e with idx := 0 } := by
  obtain ⟨hread6, hwrite6⟩ := h 6 (.inl rfl)
  obtain ⟨hread14, hwrite14⟩ := h 14 (.inr rfl)
  have hrequest (n : Nat) : e.request len n = e := by
    unfold Eeprom.request
    exact (if_neg (by omega)).trans (if_neg (by omega))
  unfold Eeprom.complete
  cases eepromAddrBits len with
  | none => rfl
  | some n => simp only [hrequest]

/-- Whatever a completion does, the next request starts at index 0. -/
theorem Eeprom.complete_frame (e : Eeprom) (len : Nat) :
    (e.complete len).used = e.used ∧ (e.complete len).idx = 0 ∧ (e.complete len).reqLen = e.reqLen := by
  have hrequest (n : Nat) : (e.request len n).used = e.used ∧ (e.request len n).reqLen = e.reqLen := by
    unfold Eeprom.request
    dsimp only
    split
    · exact ⟨rfl, rfl⟩
    · split <;> exact ⟨rfl, rfl⟩
  unfold Eeprom.complete
  cases eepromAddrBits len with
  | none => exact ⟨rfl, rfl, rfl⟩
  | some n => exact ⟨(hrequest n).1, rfl, (hrequest n).2⟩

/-! ## A whole request (R161, R162) -/

section

variable (hidx : e.idx = 0) (hpos : 0 < bits.length) (hle : bits.length ≤ 256)

include hidx hle in
theorem Eeprom.shiftBits_field (start : Nat) {n : Nat} (h : start + n ≤ bits.length) :
    (e.shiftBits bits).field start n = bitsValue ((bits.drop start).take n) := by
  refine Eeprom.field_eq_bitsValue (fun j hj => ?_) start h
  rw [Eeprom.getLsbD_shiftBits_buf (by omega) (by omega), hidx, if_pos (Nat.zero_le j), Nat.sub_zero,
    List.getD_eq_getElem _ _ hj, List.getD_eq_getElem _ _ hj]

include hidx hle in
theorem Eeprom.shiftBits_mode (h : 2 ≤ bits.length) (m : Bool) :
    (e.shiftBits bits).field 0 2 = 2 + m.toNat ↔ bits.take 2 = [true, m] := by
  rw [Eeprom.shiftBits_field hidx hle 0 (by omega), List.drop_zero]
  exact bitsValue_take_two h m

include hidx hle in
/-- The address that a request captures. -/
theorem Eeprom.shiftBits_address {n : Nat} (h : 2 + n ≤ bits.length) :
    (BitVec.ofNat 13 ((e.shiftBits bits).field 2 n * 8)).toNat = requestAddress n bits := by
  rw [BitVec.toNat_ofNat, Eeprom.shiftBits_field hidx hle 2 h, Nat.mul_comm]
  rfl

include hidx hle in
/-- The payload of a write request as the store then reads. -/
theorem Eeprom.shiftBits_payload {n k : Nat} (h : 2 + n + 64 ≤ bits.length) (hk : k < 8) :
    BitVec.ofNat 8 ((e.shiftBits bits).field (2 + n + 8 * k) 8) = requestPayload n bits k := by
  rw [Eeprom.shiftBits_field hidx hle _ (by omega)]
  rfl

include hidx hpos hle in
theorem Eeprom.shiftBits_eq_of_idx_zero :
    e.shiftBits bits = { e with used := true, idx := bits.length, buf := (e.shiftBits bits).buf } := by
  have h := Eeprom.shiftBits_eq (e := e) (List.ne_nil_of_length_pos hpos) (by omega)
  rwa [hidx, Nat.zero_add] at h

variable (hlen : e.reqLen = some bits.length)
include hidx hpos hle hlen

theorem eepromRequest_eq_complete : eepromRequest e bits = (e.shiftBits bits).complete bits.length := by
  have h := eepromRequest_eq (e := e) (List.ne_nil_of_length_pos hpos) (by rw [hidx, Nat.zero_add]; exact hlen) (by omega)
  rwa [hidx, Nat.zero_add] at h

theorem eepromRequest_frame :
    (eepromRequest e bits).used = true ∧ (eepromRequest e bits).idx = 0 ∧ (eepromRequest e bits).reqLen = e.reqLen := by
  obtain ⟨hused, hzero, hreq⟩ := (e.shiftBits bits).complete_frame bits.length
  rw [eepromRequest_eq_complete hidx hpos hle hlen, hused, hzero, hreq, Eeprom.shiftBits_eq_of_idx_zero hidx hpos hle]
  exact ⟨rfl, rfl, rfl⟩

/-- A read request captures its address for the serial read. -/
theorem eepromRequest_read {n : Nat} (hn : n = 6 ∨ n = 14) (hmode : bits.take 2 = [true, true])
    (hl : bits.length = 2 + n + 1) :
    (eepromRequest e bits).addrBits = some n ∧ (eepromRequest e bits).addr.toNat = requestAddress n bits ∧
    (eepromRequest e bits).readAddr = (eepromRequest e bits).addr ∧ (eepromRequest e bits).readIdx = 0 ∧
    (eepromRequest e bits).store = e.store := by
  have hstore : (e.shiftBits bits).store = e.store := by rw [Eeprom.shiftBits_eq_of_idx_zero hidx hpos hle]
  have hm := (Eeprom.shiftBits_mode hidx hle (by omega) true).mpr hmode
  rw [eepromRequest_eq_complete hidx hpos hle hlen, hl, Eeprom.complete_read hn hm]
  exact ⟨rfl, Eeprom.shiftBits_address hidx hle (by omega), rfl, rfl, hstore⟩

/-- A write request stores its eight payload bytes at its address. -/
theorem eepromRequest_write {n : Nat} (hn : n = 6 ∨ n = 14) (hmode : bits.take 2 = [true, false])
    (hl : bits.length = 2 + n + 64 + 1) (hwf : e.store.wf) :
    (eepromRequest e bits).addrBits = some n ∧ (eepromRequest e bits).addr.toNat = requestAddress n bits ∧
    (eepromRequest e bits).readAddr = e.readAddr ∧ (eepromRequest e bits).readIdx = 68 ∧
    (∀ k, k < 8 → (eepromRequest e bits).store.read (requestAddress n bits + k) = requestPayload n bits k) ∧
    ∀ i, (i < requestAddress n bits ∨ requestAddress n bits + 8 ≤ i) →
      (eepromRequest e bits).store.read i = e.store.read i := by
  have hshift := Eeprom.shiftBits_eq_of_idx_zero hidx hpos hle
  have hstore : (e.shiftBits bits).store = e.store := by rw [hshift]
  have hread : (e.shiftBits bits).readAddr = e.readAddr := by rw [hshift]
  have hm := (Eeprom.shiftBits_mode hidx hle (by omega) false).mpr hmode
  have haddr := Eeprom.shiftBits_address (n := n) hidx hle (by omega)
  rw [eepromRequest_eq_complete hidx hpos hle hlen, hl, Eeprom.complete_write hn hm]
  refine ⟨rfl, haddr, hread, rfl, fun k hk => ?_, fun i hi => ?_⟩
  · rw [haddr, Eeprom.read_storePayload (hstore ▸ hwf), if_pos (by omega), Nat.add_sub_cancel_left,
      Eeprom.shiftBits_payload hidx hle (by omega) hk]
  · rw [haddr, Eeprom.read_storePayload (hstore ▸ hwf), if_neg (by omega), hstore]

/-- A request of another length or mode is ignored. -/
theorem eepromRequest_ignored (h : ∀ n, (n = 6 ∨ n = 14) → ¬ (bits.take 2 = [true, true] ∧ bits.length = 2 + n + 1) ∧
      ¬ (bits.take 2 = [true, false] ∧ bits.length = 2 + n + 64 + 1)) :
    (eepromRequest e bits).addrBits = e.addrBits ∧ (eepromRequest e bits).addr = e.addr ∧
    (eepromRequest e bits).readAddr = e.readAddr ∧ (eepromRequest e bits).readIdx = e.readIdx ∧
    (eepromRequest e bits).store = e.store := by
  have hignored : ∀ n, (n = 6 ∨ n = 14) →
      ¬ ((e.shiftBits bits).field 0 2 = 3 ∧ bits.length = 2 + n + 1) ∧
      ¬ ((e.shiftBits bits).field 0 2 = 2 ∧ bits.length = 2 + n + 64 + 1) := by
    intro n hn
    obtain ⟨hread, hwrite⟩ := h n hn
    exact ⟨fun ⟨hm, hl⟩ => hread ⟨(Eeprom.shiftBits_mode hidx hle (by omega) true).mp hm, hl⟩,
      fun ⟨hm, hl⟩ => hwrite ⟨(Eeprom.shiftBits_mode hidx hle (by omega) false).mp hm, hl⟩⟩
  rw [eepromRequest_eq_complete hidx hpos hle hlen, Eeprom.complete_ignored hignored,
    Eeprom.shiftBits_eq_of_idx_zero hidx hpos hle]
  exact ⟨rfl, rfl, rfl, rfl, rfl⟩

end

/-- Settles O46: plain storage, SRAM, one bit of either bus master, and a whole request by its length and mode. -/
theorem storeLoadRoundTrip : Obligations.StoreLoadRoundTrip := by
  refine ⟨fun s a v w hwf h => readRaw_memWrite_of_plain hwf h v,
    fun b a v hwf hused hid hg hm => backupReadByte_backupWriteByte hwf hused hid hg hm a v,
    fun b r15 a v w h => ?_, fun edge r15 c b h => dmaUnit_eeprom h edge r15, fun e bits hwf hidx hlen hpos hle => ?_⟩
  · rw [busWrite, writeWith_of_window h]
    exact ⟨rfl, b.eeprom.shiftIn_used _, b.eeprom.shiftIn_idx _, fun j hj => b.eeprom.getLsbD_shiftIn_buf _ hj,
      b.eeprom.shiftIn_frame _⟩
  · obtain ⟨hused, hzero, hreq⟩ := eepromRequest_frame hidx hpos hle hlen
    exact ⟨hused, hzero, hreq, fun n hn ⟨hmode, hl⟩ => eepromRequest_read hidx hpos hle hlen hn hmode hl,
      fun n hn ⟨hmode, hl⟩ => eepromRequest_write hidx hpos hle hlen hn hmode hl hwf,
      eepromRequest_ignored hidx hpos hle hlen⟩

end Sys2Proof.Machine
end

section
/-! What serial reads of the EEPROM give: the bit of a bus read, the walk of the read index and the order of the bits (spec
`21_backup.md` R164, R165). -/

namespace Sys2Proof.Machine

/-! ## A bus read in the window (R164) -/

theorem afterRead_of_window {b : Bus} {a : Word} {w : Width} (h : eepromWindow b (w.align a) false = true) :
    afterRead b a w = { b with eeprom := b.eeprom.afterRead } :=
  if_pos h

theorem setWidth_ofBool (bit : Bool) : (BitVec.ofBool bit).setWidth 32 = if bit then 1#32 else 0#32 := by
  cases bit <;> rfl

/-! ## The read index -/

/-- One serial read moves the read index alone, up to 68. -/
theorem Eeprom.afterRead_eq (e : Eeprom) :
    e.afterRead = { e with readIdx := if e.readIdx < 68 then e.readIdx + 1 else e.readIdx } := by
  by_cases h : e.readIdx < 68 <;> simp [Eeprom.afterRead, h]

theorem Eeprom.afterRead_iterate {e : Eeprom} (h : e.readIdx ≤ 68) (i : Nat) :
    Eeprom.afterRead^[i] e = { e with readIdx := min (e.readIdx + i) 68 } := by
  induction i with
  | zero => rw [Function.iterate_zero_apply, Nat.add_zero, Nat.min_eq_left h]
  | succ i ih =>
    have hnext : (if min (e.readIdx + i) 68 < 68 then min (e.readIdx + i) 68 + 1 else min (e.readIdx + i) 68) =
        min (e.readIdx + (i + 1)) 68 := by
      split <;> omega
    rw [Function.iterate_succ_apply', ih, Eeprom.afterRead_eq, ← hnext]

/-! ## The bit at each read index -/

section

variable {e : Eeprom}

theorem Eeprom.readBit_of_lt_four (h : e.readIdx < 4) : e.readBit = false :=
  if_pos h

/-- The 64 bits of the doubleword, most significant bit of each byte first. -/
theorem Eeprom.readBit_of_data (hlo : 4 ≤ e.readIdx) (hhi : e.readIdx < 68) :
    e.readBit = (e.store.read (e.readAddr.toNat + (e.readIdx - 4) / 8)).getLsbD (7 - (e.readIdx - 4) % 8) :=
  (if_neg (by omega)).trans (if_pos hhi)

theorem Eeprom.readBit_of_past (h : 68 ≤ e.readIdx) : e.readBit = true :=
  (if_neg (by omega)).trans (if_neg (by omega))

/-- The bit of read `i`, counted from the capture of a read request. -/
theorem Eeprom.readBit_iterate_afterRead (h : e.readIdx = 0) (i : Nat) :
    (Eeprom.afterRead^[i] e).readBit =
      (if i < 4 then false
      else if i < 68 then (e.store.read (e.readAddr.toNat + (i - 4) / 8)).getLsbD (7 - (i - 4) % 8)
      else true) := by
  rw [Eeprom.afterRead_iterate (by omega), h, Nat.zero_add]
  split
  case isTrue hzero => exact Eeprom.readBit_of_lt_four (min_lt_of_left_lt hzero)
  case isFalse hzero =>
    split
    case isTrue hdata =>
      rw [Nat.min_eq_left hdata.le]
      exact Eeprom.readBit_of_data (not_lt.mp hzero) hdata
    case isFalse hpast => exact Eeprom.readBit_of_past (Nat.le_min.mpr ⟨not_lt.mp hpast, le_rfl⟩)

end

/-- Settles O58: a bus read is one serial read, and serial read `i` is at read index `i`, or at 68 once all bits are out. -/
theorem eepromReadsSerially : Obligations.EepromReadsSerially := by
  refine ⟨fun b r15 a w h => ⟨?_, ?_⟩, fun e i h => Eeprom.readBit_iterate_afterRead h i⟩
  · rw [readRaw_of_window h, setWidth_ofBool]
  · rw [afterRead_of_window h, Eeprom.afterRead_eq]

end Sys2Proof.Machine
end

section
/-! Stores to the I/O file: how lanes make a register, the bytes of an access, one lemma per register (spec
`22_io_registers.md` R171-R204). -/

namespace Sys2Proof.Machine

/-! ## Lanes of a register (R171) -/

theorem getLsbD_setLane {n : Nat} (x : BitVec n) (k : Nat) (u : Byte) {j : Nat} (hj : j < n) :
    (setLane x k u).getLsbD j = if 8 * k ≤ j ∧ j < 8 * k + 8 then u.getLsbD (j - 8 * k) else x.getLsbD j := by
  have hbyte : (BitVec.ofNat n 255).getLsbD (j - 8 * k) = decide (j - 8 * k < 8) := by
    rw [BitVec.getLsbD_ofNat, show 255 = 2 ^ 8 - 1 from rfl, Nat.testBit_two_pow_sub_one]
    simp only [show j - 8 * k < n by omega, decide_true, Bool.true_and]
  simp only [setLane, BitVec.getLsbD_or, BitVec.getLsbD_and, BitVec.getLsbD_not, BitVec.getLsbD_shiftLeft, hbyte, hj,
    BitVec.getLsbD_setWidth, decide_true, Bool.true_and]
  by_cases hlow : 8 * k ≤ j
  · by_cases hhigh : j < 8 * k + 8
    · simp [hlow, hhigh, Nat.not_lt.mpr hlow, show j - 8 * k < 8 by omega, show j - 8 * k < n by omega]
    · simp [hhigh, Nat.not_lt.mpr hlow, show ¬ j - 8 * k < 8 by omega,
        BitVec.getLsbD_of_ge u _ (show 8 ≤ j - 8 * k by omega)]
  · simp [hlow, Nat.lt_of_not_le hlow]

theorem setLane_zero (x : BitVec 16) (u : Byte) : setLane x 0 u = x.extractLsb' 8 8 ++ u := by
  refine BitVec.eq_of_getLsbD_eq fun j hj => ?_
  rw [getLsbD_setLane x 0 u hj, BitVec.getLsbD_append, BitVec.getLsbD_extractLsb']
  by_cases h : j < 8
  · simp [h]
  · simp [h, show j - 8 < 8 by omega, show 8 + (j - 8) = j by omega]

theorem setLane_one (x : BitVec 16) (u : Byte) : setLane x 1 u = u ++ x.extractLsb' 0 8 := by
  refine BitVec.eq_of_getLsbD_eq fun j hj => ?_
  rw [getLsbD_setLane x 1 u hj, BitVec.getLsbD_append, BitVec.getLsbD_extractLsb']
  by_cases h : j < 8
  · simp [h, show ¬ 8 ≤ j by omega]
  · simp [h, show 8 ≤ j by omega, hj]

@[simp] theorem lane_append_zero (w u : Byte) : lane (w ++ u) 0 = u := by
  refine BitVec.eq_of_getLsbD_eq fun j hj => ?_
  rw [getLsbD_lane, BitVec.getLsbD_append]
  simp [hj]

@[simp] theorem lane_append_one (w u : Byte) : lane (w ++ u) 1 = w := by
  refine BitVec.eq_of_getLsbD_eq fun j hj => ?_
  rw [getLsbD_lane, BitVec.getLsbD_append]
  simp [hj]

theorem setLane_setLane (x : BitVec 16) (u w : Byte) : setLane (setLane x 0 u) 1 w = w ++ u := by
  rw [setLane_one, setLane_zero]
  exact congrArg (w ++ ·) (lane_append_zero _ u)

@[simp] theorem lane_setLane_one (x : BitVec 16) (u : Byte) : lane (setLane x 0 u) 1 = lane x 1 := by
  rw [setLane_zero, lane_append_one]
  rfl

theorem append_lanes (x : BitVec 16) : lane x 1 ++ lane x 0 = x := by
  refine BitVec.eq_of_getLsbD_eq fun j hj => ?_
  rw [BitVec.getLsbD_append, getLsbD_lane, getLsbD_lane]
  by_cases h : j < 8
  · simp [h]
  · simp [h, show j - 8 < 8 by omega, show 8 + (j - 8) = j by omega]

/-- A halfword stored lane by lane, the high lane under a mask. -/
theorem setLane_setLane_and (x : BitVec 16) (v : Word) (high : Byte) :
    setLane (setLane x 0 (lane v 0)) 1 (lane v 1 &&& high) = v.setWidth 16 &&& (high ++ 0xFF#8) := by
  rw [setLane_setLane, ← lanes_half, BitVec.and_append, show lane v 0 &&& 0xFF#8 = lane v 0 from BitVec.and_allOnes]

theorem getLsbD_lane_sub {n : Nat} (x : BitVec n) {k j : Nat} (hlow : 8 * k ≤ j) (hhigh : j < 8 * k + 8) :
    (lane x k).getLsbD (j - 8 * k) = x.getLsbD j := by
  rw [getLsbD_lane, Nat.add_sub_cancel' hlow, decide_eq_true (by omega), Bool.true_and]

/-- A word stored lane by lane. -/
theorem setLane_word (x v : Word) :
    setLane (setLane (setLane (setLane x 0 (lane v 0)) 1 (lane v 1)) 2 (lane v 2)) 3 (lane v 3) = v := by
  refine BitVec.eq_of_getLsbD_eq fun j hj => ?_
  simp only [getLsbD_setLane _ _ _ hj]
  split
  case isTrue h => exact getLsbD_lane_sub v h.1 h.2
  split
  case isTrue h => exact getLsbD_lane_sub v h.1 h.2
  split
  case isTrue h => exact getLsbD_lane_sub v h.1 h.2
  split
  case isTrue h => exact getLsbD_lane_sub v h.1 h.2
  omega

/-- A halfword stored lane by lane, each lane merged under a mask. -/
theorem setLane_setLane_merge (x : BitVec 16) (v : Word) (low high : Byte) :
    setLane (setLane x 0 (mergeBits low (lane x 0) (lane v 0))) 1 (mergeBits high (lane x 1) (lane v 1)) =
      mergeBits (high ++ low) x (v.setWidth 16) := by
  rw [setLane_setLane, mergeBits, mergeBits, mergeBits, ← BitVec.or_append, ← BitVec.and_append, ← BitVec.and_append,
    ← BitVec.not_append, append_lanes, lanes_half]

/-! ## The bytes of an access (R91) -/

theorem writeWith_of_io {a : Word} {w : Width} {off : Nat} (h : regionOf a = .io) (hoff : offsetOf (w.align a) = off)
    (hle : off ≤ 0x3FF) (m : BusMaster) (edge : Fin 4 → Bus → Bus) (r15 v : Word) (b : Bus) :
    writeWith m edge r15 a w v b = eachLane w v (fun k u => ioWriteByte edge r15 (off + k) u) b := by
  have hwin := eepromWindow_of_not_rom b (w.align a) true (by rw [regionOf_align, h]; decide)
  simp only [writeWith, hwin, regionOf_align, h, hoff, hle, if_true, Bool.false_eq_true, if_false]

theorem busWrite_of_io {a : Word} {w : Width} {off : Nat} (h : regionOf a = .io) (hoff : offsetOf (w.align a) = off)
    (hle : off ≤ 0x3FF) (r15 v : Word) (b : Bus) :
    busWrite r15 a w v b = eachLane w v (fun k u => ioWriteByte (dmaEnableEdge r15) r15 (off + k) u) b :=
  writeWith_of_io h hoff hle .cpu _ r15 v b

theorem readRaw_of_io {a : Word} {w : Width} {off : Nat} (h : regionOf a = .io) (hoff : offsetOf (w.align a) = off)
    (hle : off ≤ 0x3FF) (b : Bus) (r15 : Word) :
    readRaw b r15 a w = assemble w fun k => ioReadByte b (off + k) := by
  rw [readRaw_of_not_rom (by rw [h]; decide)]
  refine assemble_congr w fun k _ => ?_
  simp only [readLane, regionOf_align, h, hoff, hle, if_true]

/-- A halfword register reads as its two lanes. -/
theorem toNat_assemble_half (x : BitVec 16) : (assemble .half (lane x)).toNat = x.toNat := by
  rw [toNat_assemble]
  simp only [lane, BitVec.extractLsb'_toNat, Width.bytes, List.range_succ]
  have := x.isLt
  simp [Nat.shiftRight_eq_div_pow]
  omega

/-! ## Interrupt, waitstate, power and keypad registers (R178, R196-R201, R203, R204) -/

section

variable (b : Bus) (r15 v : Word)

theorem busWrite_ie :
    busWrite r15 0x04000200#32 .half v b = { b with io := { b.io with ie := v.setWidth 16 &&& 0x3FFF#16 } } := by
  have hlanes : setLane (setLane b.io.ie 0 (lane v 0)) 1 (lane v 1 &&& 0x3F#8) = v.setWidth 16 &&& 0x3FFF#16 :=
    setLane_setLane_and b.io.ie v 0x3F#8
  rw [busWrite_of_io (off := 0x200) rfl rfl (by decide), ← hlanes]
  rfl

theorem busWrite_irf :
    busWrite r15 0x04000202#32 .half v b = { b with io := { b.io with irf := b.io.irf &&& ~~~v.setWidth 16 } } := by
  have hlanes : setLane (setLane b.io.irf 0 (lane b.io.irf 0 &&& ~~~lane v 0)) 1
      (lane (setLane b.io.irf 0 (lane b.io.irf 0 &&& ~~~lane v 0)) 1 &&& ~~~lane v 1) = b.io.irf &&& ~~~v.setWidth 16 := by
    rw [lane_setLane_one, setLane_setLane, ← BitVec.and_append, ← BitVec.not_append, append_lanes, lanes_half]
  rw [busWrite_of_io (off := 0x202) rfl rfl (by decide), ← hlanes]
  rfl

theorem busWrite_waitcnt :
    busWrite r15 0x04000204#32 .half v b =
      { b with
        io := { b.io with waitcnt := v.setWidth 16 &&& 0x5FFF#16 }
        wait := WaitTables.compute b.params.regionBase (v.setWidth 16 &&& 0x5FFF#16) } := by
  have hlow : lane v 0 &&& waitcntMask 0 = lane v 0 := BitVec.and_allOnes
  have hlanes : setLane (setLane b.io.waitcnt 0 (lane v 0 &&& waitcntMask 0)) 1 (lane v 1 &&& waitcntMask 1) =
      v.setWidth 16 &&& 0x5FFF#16 := by
    rw [hlow]
    exact setLane_setLane_and b.io.waitcnt v 0x5F#8
  rw [busWrite_of_io (off := 0x204) rfl rfl (by decide), ← hlanes]
  rfl

theorem busWrite_ime :
    busWrite r15 0x04000208#32 .half v b = { b with io := { b.io with ime := v.getLsbD 0 } } := by
  have hbit : (lane v 0).getLsbD 0 = v.getLsbD 0 := getLsbD_lane v 0 0
  rw [busWrite_of_io (off := 0x208) rfl rfl (by decide), ← hbit]
  rfl

theorem busWrite_haltcnt :
    busWrite r15 0x04000301#32 .byte v b = { b with run := if v.getLsbD 7 then .stop else .halt } := by
  have hbit : (lane v 0).getLsbD 7 = v.getLsbD 7 := getLsbD_lane v 0 7
  rw [busWrite_of_io (off := 0x301) rfl rfl (by decide), ← hbit]
  rfl

theorem busWrite_postflg :
    busWrite r15 0x04000300#32 .byte v b = { b with io := { b.io with postflg := v.getLsbD 0 } } := by
  have hbit : (lane v 0).getLsbD 0 = v.getLsbD 0 := getLsbD_lane v 0 0
  rw [busWrite_of_io (off := 0x300) rfl rfl (by decide), ← hbit]
  rfl

theorem busWrite_vcount : busWrite r15 0x04000006#32 .half v b = b :=
  busWrite_of_io (off := 0x006) rfl rfl (by decide) r15 v b

theorem busWrite_keyinput : busWrite r15 0x04000130#32 .half v b = b :=
  busWrite_of_io (off := 0x130) rfl rfl (by decide) r15 v b

theorem busWrite_keycnt :
    busWrite r15 0x04000132#32 .half v b = { b with io := { b.io with keycnt := v.setWidth 16 } } := by
  have hlanes : setLane (setLane b.io.keycnt 0 (lane v 0)) 1 (lane v 1) = v.setWidth 16 := by
    rw [setLane_setLane, lanes_half]
  rw [busWrite_of_io (off := 0x132) rfl rfl (by decide), ← hlanes]
  rfl

theorem readRaw_keycnt : (readRaw b r15 0x04000132#32 .half).toNat = b.io.keycnt.toNat := by
  rw [readRaw_of_io (off := 0x132) rfl rfl (by decide), ← toNat_assemble_half]
  rfl

/-! ## Display and sound control (R176, R177, R180) -/

/-- The writable bits of DISPCNT: bit 3 is written from the BIOS alone (R176). -/
def dispcntMask (r15 : Word) : BitVec 16 :=
  if 0x4000 ≤ r15.toNat then 0xFFF7#16 else 0xFFFF#16

theorem getLsbD_dispcntMask {k : Nat} (hk : k < 16) :
    (dispcntMask r15).getLsbD k = !decide (k = 3 ∧ 0x4000 ≤ r15.toNat) := by
  have hinside : ∀ k < 16, (0xFFFF#16).getLsbD k = true := by decide
  have houtside : ∀ k < 16, (0xFFF7#16).getLsbD k = !decide (k = 3) := by decide
  unfold dispcntMask
  split
  case isTrue h => simp only [houtside k hk, h, and_true]
  case isFalse h => simp only [hinside k hk, h, and_false, decide_false, Bool.not_false]

theorem busWrite_dispcnt :
    busWrite r15 0x04000000#32 .half v b =
      { b with io := { b.io with dispcnt := mergeBits (dispcntMask r15) b.io.dispcnt (v.setWidth 16) } } := by
  have hmask : 0xFF#8 ++ (if 0 = 0 ∧ ¬ r15 < 0x4000#32 then 0xF7#8 else 0xFF#8) = dispcntMask r15 := by
    have hcond : (0 = 0 ∧ ¬ r15 < 0x4000#32) ↔ 0x4000 ≤ r15.toNat := by simp [BitVec.lt_def]
    rw [dispcntMask, if_congr hcond rfl rfl, apply_ite (0xFF#8 ++ ·)]
    rfl
  rw [busWrite_of_io (off := 0x000) rfl rfl (by decide), ← hmask, ← setLane_setLane_merge,
    ← lane_setLane_one b.io.dispcnt]
  rfl

theorem busWrite_dispstat :
    busWrite r15 0x04000004#32 .half v b =
      { b with io := { b.io with dispstat := mergeBits 0xFF38#16 b.io.dispstat (v.setWidth 16) } } := by
  have hlanes := setLane_setLane_merge b.io.dispstat v 0x38#8 0xFF#8
  rw [← lane_setLane_one b.io.dispstat] at hlanes
  rw [busWrite_of_io (off := 0x004) rfl rfl (by decide), show 0xFF38#16 = 0xFF#8 ++ 0x38#8 from rfl, ← hlanes]
  rfl

theorem busWrite_soundcntH :
    busWrite r15 0x04000082#32 .half v b =
      { b with io := { b.io with
        soundcntH := v.setWidth 16 &&& 0x77FF#16
        fifoA := if v.getLsbD 11 then 0 else b.io.fifoA
        fifoB := if v.getLsbD 15 then 0 else b.io.fifoB } } := by
  have hlanes : setLane (setLane b.io.soundcntH 0 (lane v 0)) 1 (lane v 1 &&& 0x77#8) =
      v.setWidth 16 &&& 0x77FF#16 :=
    setLane_setLane_and b.io.soundcntH v 0x77#8
  have hresetA : (lane v 1).getLsbD 3 = v.getLsbD 11 := getLsbD_lane v 1 3
  have hresetB : (lane v 1).getLsbD 7 = v.getLsbD 15 := getLsbD_lane v 1 7
  rw [busWrite_of_io (off := 0x082) rfl rfl (by decide), ← hlanes, ← hresetA, ← hresetB]
  rfl

/-! ## Timers (R191-R193) -/

variable (t : Fin 4)

theorem updTimer_updTimer (f g : Timer → Timer) : updTimer t g (updTimer t f b) = updTimer t (fun x => g (f x)) b := by
  fin_cases t <;> rfl

theorem busWrite_timerReload :
    busWrite r15 (0x04000100#32 + BitVec.ofNat 32 (4 * t.val)) .half v b =
      updTimer t (fun x => { x with reload := v.setWidth 16 }) b := by
  have hlow : ioLane (0x100 + 4 * t.val) = .tmCntL t 0 := by fin_cases t <;> rfl
  have hhigh : ioLane (0x100 + 4 * t.val + 1) = .tmCntL t 1 := by fin_cases t <;> rfl
  rw [busWrite_of_io (off := 0x100 + 4 * t.val) (by fin_cases t <;> rfl) (by fin_cases t <;> rfl) (by omega)]
  simp only [eachLane, ioWriteByte, Nat.add_zero, hlow, hhigh, updTimer_updTimer, setLane_setLane, lanes_half]

theorem readRaw_timerCounter :
    (readRaw b r15 (0x04000100#32 + BitVec.ofNat 32 (4 * t.val)) .half).toNat = (b.io.timer.get t).counter % 2 ^ 16 := by
  have hread : ∀ k < 2, ioReadByte b (0x100 + 4 * t.val + k) = lane (BitVec.ofNat 16 (b.io.timer.get t).counter) k := by
    intro k hk
    have hlane : ioLane (0x100 + 4 * t.val + k) = .tmCntL t k := by interval_cases k <;> fin_cases t <;> rfl
    simp only [ioReadByte, hlane]
  rw [readRaw_of_io (off := 0x100 + 4 * t.val) (by fin_cases t <;> rfl) (by fin_cases t <;> rfl) (by omega),
    assemble_congr .half hread, toNat_assemble_half, BitVec.toNat_ofNat]

/-- What the low control byte writes, by whether it enables the timer. -/
theorem Timer.writeControl_eq (x : Timer) (u : Byte) :
    x.writeControl u =
      { x with
        control := u &&& 0xC7#8
        counter := if x.control.getLsbD 7 = false ∧ u.getLsbD 7 = true then x.reload.toNat else x.counter
        acc := if x.control.getLsbD 7 = false ∧ u.getLsbD 7 = true then 0 else x.acc } := by
  have hbit : (u &&& 0xC7#8).getLsbD 7 = u.getLsbD 7 := by simp
  simp only [Timer.writeControl, hbit]
  split <;> rfl

theorem busWrite_timerControl :
    busWrite r15 (0x04000102#32 + BitVec.ofNat 32 (4 * t.val)) .byte v b =
      updTimer t (fun x => x.writeControl (v.setWidth 8)) b := by
  have hlane : ioLane (0x102 + 4 * t.val) = .tmCntH t 0 := by fin_cases t <;> rfl
  have hlow : lane v 0 = v.setWidth 8 := (BitVec.setWidth_eq_extractLsb' (by decide)).symm
  rw [busWrite_of_io (off := 0x102 + 4 * t.val) (by fin_cases t <;> rfl) (by fin_cases t <;> rfl) (by omega)]
  simp only [eachLane, ioWriteByte, Nat.add_zero, hlane, hlow, if_true]

end

/-- Settles O48: register by register. -/
theorem ioRegisterWrites : Obligations.IoRegisterWrites := by
  intro b r15 v
  refine ⟨busWrite_ie b r15 v, busWrite_irf b r15 v, busWrite_ime b r15 v, busWrite_waitcnt b r15 v, busWrite_haltcnt b r15 v,
    busWrite_vcount b r15 v, busWrite_keyinput b r15 v, fun k hk => ?_, ⟨fun k hk => ?_, ?_⟩, busWrite_soundcntH b r15 v,
    ⟨busWrite_keycnt b r15 v, ?_⟩, busWrite_postflg b r15 v,
    fun t => ⟨busWrite_timerReload b r15 v t, readRaw_timerCounter b r15 t⟩, fun t => ?_⟩
  · rw [busWrite_dispcnt]
    simp only [getLsbD_mergeBits hk, getLsbD_dispcntMask r15 hk, BitVec.getLsbD_setWidth, hk, decide_true, Bool.true_and]
    by_cases h : k = 3 ∧ 0x4000 ≤ r15.toNat <;> simp [h]
  · have hmask : ∀ k < 16, (0xFF38#16).getLsbD k = decide ((3 ≤ k ∧ k ≤ 5) ∨ 8 ≤ k) := by decide
    rw [busWrite_dispstat]
    simp only [getLsbD_mergeBits hk, hmask k hk, BitVec.getLsbD_setWidth, hk, decide_true, Bool.true_and, decide_eq_true_eq]
  · rw [busWrite_dispstat]
  · rw [busWrite_keycnt, readRaw_keycnt, BitVec.toNat_setWidth]
  · rw [busWrite_timerControl]
    have hbit : (v.setWidth 8).getLsbD 7 = v.getLsbD 7 := by simp
    simp only [updTimer, Timer.writeControl_eq, hbit]

end Sys2Proof.Machine
end

section
/-! DMA transfers: what a unit changes, runs whose destinations lie outside the I/O file, the enable edge (spec
`50_dma.md` R492-R501, `22_io_registers.md` R185, R186). -/

namespace Sys2Proof.Machine

/-! ## Signed steps (R494) -/

theorem DmaChannel.sstep_eq (d : DmaChannel) (w : Width) :
    d.sstep w = BitVec.ofInt 32 (signedStep (d.cntH.extractLsb' 7 2) w.bytes) := by
  unfold DmaChannel.sstep
  generalize d.cntH.extractLsb' 7 2 = mode
  revert mode
  cases w <;> decide

theorem DmaChannel.dstep_eq (d : DmaChannel) (w : Width) :
    d.dstep w = BitVec.ofInt 32 (signedStep (d.cntH.extractLsb' 5 2) w.bytes) := by
  unfold DmaChannel.dstep
  generalize d.cntH.extractLsb' 5 2 = mode
  revert mode
  cases w <;> decide

/-- One step and then `k` steps are `k + 1` steps. -/
theorem add_ofInt_steps (a : Word) (k : Nat) (step : Int) :
    a + BitVec.ofInt 32 step + BitVec.ofInt 32 (k * step) = a + BitVec.ofInt 32 ((k + 1 : Nat) * step) := by
  rw [BitVec.add_assoc, ← BitVec.ofInt_add]
  congr 2
  push_cast
  ring

/-! ## Updates of a channel -/

@[simp] theorem updDma_get_same (c : Fin 4) (f : DmaChannel → DmaChannel) (b : Bus) :
    (updDma c f b).io.dma.get c = f (b.io.dma.get c) :=
  Four.get_set_same ..

theorem updDma_updDma (c : Fin 4) (f g : DmaChannel → DmaChannel) (b : Bus) :
    updDma c g (updDma c f b) = updDma c (fun d => g (f d)) b := by
  fin_cases c <;> rfl

@[simp] theorem afterRead_io (b : Bus) (a : Word) (w : Width) : (afterRead b a w).io = b.io := by
  unfold afterRead; split <;> rfl

/-! ## A unit whose destination lies outside the I/O file (R497) -/

section

variable {a : Word} (h : regionOf a ≠ .io) (m : BusMaster)
include h

/-- Outside the I/O file no write meets an enable edge. -/
theorem writeWith_edge_congr (edge edge' : Fin 4 → Bus → Bus) (r15 : Word) (w : Width) (v : Word) (b : Bus) :
    writeWith m edge r15 a w v b = writeWith m edge' r15 a w v b := by
  rw [← regionOf_align w] at h
  simp only [writeWith]
  cases hr : regionOf (w.align a)
  case io => exact absurd hr h
  all_goals rfl

theorem writeWith_io (edge : Fin 4 → Bus → Bus) (r15 : Word) (w : Width) (v : Word) (b : Bus) :
    (writeWith m edge r15 a w v b).io = b.io := by
  have hbackup (off : Nat) : (eachLane w v (fun k u => backupWriteByte (off + k) u) b).io = b.io :=
    eachLane_keeps (fun t : Bus => t.io = b.io) w v (fun k u => backupWriteByte (off + k) u) (fun _ _ _ ht => ht) b rfl
  rw [← regionOf_align w] at h
  simp only [writeWith]
  split
  · rfl
  · cases hr : regionOf (w.align a)
    case io => exact absurd hr h
    case backup => exact hbackup _
    case oam => simp only; split <;> rfl
    all_goals rfl

end

section

variable {c : Fin 4} {b : Bus} (edge edge' : Fin 4 → Bus → Bus) (r15 : Word)

theorem dmaUnit_edge_congr (h : regionOf (b.io.dma.get c).dst ≠ .io) : dmaUnit edge r15 c b = dmaUnit edge' r15 c b := by
  rw [dmaUnit, writeWith_edge_congr h .dma edge edge']
  rfl

/-- A unit moves its channel by one step and no other register. -/
theorem dmaUnit_io (h : regionOf (b.io.dma.get c).dst ≠ .io) :
    (dmaUnit edge r15 c b).io =
      { b.io with dma := b.io.dma.set c ((b.io.dma.get c).advance (b.io.dma.get c).width) } := by
  simp only [dmaUnit, updDma, writeWith_io h, afterRead_io]

/-- The destinations of `n` units lie outside the I/O file. -/
def DmaChannel.AvoidsIo (d : DmaChannel) (n : Nat) : Prop :=
  ∀ k, k < n → regionOf (d.dst + BitVec.ofInt 32 (k * signedStep (d.cntH.extractLsb' 5 2) d.width.bytes)) ≠ .io

theorem DmaChannel.AvoidsIo.first {d : DmaChannel} {n : Nat} (h : d.AvoidsIo (n + 1)) : regionOf d.dst ≠ .io := by
  simpa using h 0 (Nat.succ_pos n)

theorem DmaChannel.AvoidsIo.rest {d : DmaChannel} {n : Nat} (h : d.AvoidsIo (n + 1)) : (d.advance d.width).AvoidsIo n := by
  intro k hk
  have hnext := h (k + 1) (Nat.succ_lt_succ hk)
  rw [← add_ofInt_steps, ← d.dstep_eq d.width] at hnext
  exact hnext

/-- Units that avoid the I/O file meet no other edge. -/
theorem dmaUnits_edge_congr {n : Nat} (h : (b.io.dma.get c).AvoidsIo n) :
    dmaUnits edge r15 c n b = dmaUnits edge' r15 c n b := by
  induction n generalizing b with
  | zero => rfl
  | succ n ih =>
    have hrest : ((dmaUnit edge' r15 c b).io.dma.get c).AvoidsIo n := by
      rw [dmaUnit_io edge' r15 h.first, Four.get_set_same]
      exact h.rest
    rw [dmaUnits, dmaUnit_edge_congr edge edge' r15 h.first, ih hrest]
    rfl

end

/-! ## A whole run (R499-R501) -/

theorem dmaStart_eq (c : Fin 4) (b : Bus) :
    dmaStart c b =
      { b with
        dmaCycles := b.dmaCycles + dmaCost c (b.io.dma.get c).remaining b
        eeprom := if c = 3 then { b.eeprom with idx := 0, reqLen := some (b.io.dma.get c).remaining } else b.eeprom } := by
  unfold dmaStart
  split <;> rfl

@[simp] theorem dmaStart_io (c : Fin 4) (b : Bus) : (dmaStart c b).io = b.io := by
  rw [dmaStart_eq]

theorem dmaRun_eq {c : Fin 4} {b : Bus} (h : (b.io.dma.get c).AvoidsIo (b.io.dma.get c).remaining)
    (edge : Fin 4 → Bus → Bus) (depth : Nat) (running : List (Fin 4)) (r15 : Word) :
    dmaRun (depth + 1) running r15 c b =
      dmaComplete c (dmaUnits edge r15 c (b.io.dma.get c).remaining (dmaStart c b)) := by
  simp only [dmaRun, dmaStart_io]
  rw [dmaUnits_edge_congr _ edge r15 (by rwa [dmaStart_io])]

/-! ## The control register (R185, R186, R492, R493, R495) -/

/-- The high control byte replaced. -/
def DmaChannel.withControl (v : Byte) (d : DmaChannel) : DmaChannel :=
  { d with cntH := v ++ d.cntH.extractLsb' 0 8 }

section

variable (d : DmaChannel) (v : Byte)

theorem getLsbD_withControl {k : Nat} (h : 8 ≤ k) : (d.withControl v).cntH.getLsbD k = v.getLsbD (k - 8) := by
  rw [DmaChannel.withControl, BitVec.getLsbD_append, if_neg (Nat.not_lt.mpr h)]

theorem withControl_timing : (d.withControl v).cntH.extractLsb' 12 2 = v.extractLsb' 4 2 := by
  refine BitVec.eq_of_getLsbD_eq fun j _ => ?_
  rw [BitVec.getLsbD_extractLsb', BitVec.getLsbD_extractLsb', getLsbD_withControl d v (by omega),
    show 12 + j - 8 = 4 + j by omega]

theorem withControl_dstMode : (d.withControl v).cntH.extractLsb' 5 2 = d.cntH.extractLsb' 5 2 := by
  refine BitVec.eq_of_getLsbD_eq fun j hj => ?_
  rw [DmaChannel.withControl, BitVec.getLsbD_extractLsb', BitVec.getLsbD_extractLsb', BitVec.getLsbD_append,
    BitVec.getLsbD_extractLsb', if_pos (by omega), Nat.zero_add, decide_eq_true (show 5 + j < 8 by omega), Bool.true_and]

theorem withControl_bytes : (d.withControl v).width.bytes = if v.getLsbD 2 then 4 else 2 := by
  rw [DmaChannel.width, getLsbD_withControl d v (k := 10) (by decide), apply_ite Width.bytes]
  rfl

end

theorem align_eq_ofNat (w : Width) (a : Word) : w.align a = BitVec.ofNat 32 (a.toNat / w.bytes * w.bytes) := by
  rw [← toNat_align, BitVec.ofNat_toNat, BitVec.setWidth_eq]

theorem dmaCount_eq (c : Fin 4) (d : DmaChannel) :
    dmaCount c d = if d.cntL ≠ 0#16 then d.cntL.toNat else if c.val = 3 then 0x10000 else 0x4000 := by
  unfold dmaCount
  exact if_congr Iff.rfl rfl (if_congr Fin.ext_iff rfl rfl)

section

variable (edge : Fin 4 → Bus → Bus) (r15 : Word) (c : Fin 4) (v : Byte) (b : Bus)

theorem ioWriteByte_dmaControlLow :
    ioWriteByte edge r15 (0x0BA + 12 * c.val) v b =
      updDma c (fun d => { d with cntH := d.cntH.extractLsb' 8 8 ++ (v &&& 0xE0#8) }) b := by
  have hlane : ioLane (0x0BA + 12 * c.val) = .dmaCntH c 0 := by fin_cases c <;> rfl
  simp only [ioWriteByte, hlane, enableFlips, DmaChannel.writeCntH, setLane_zero]
  rfl

/-- The high control byte is stored, and then the edge happens if ENABLE goes from 0 to 1. -/
theorem ioWriteByte_dmaControlHigh :
    ioWriteByte edge r15 (0x0BB + 12 * c.val) v b =
      if (b.io.dma.get c).cntH.getLsbD 15 = false ∧ v.getLsbD 7 = true then
        edge c (updDma c (DmaChannel.withControl v) b)
      else updDma c (DmaChannel.withControl v) b := by
  have hlane : ioLane (0x0BB + 12 * c.val) = .dmaCntH c 1 := by fin_cases c <;> rfl
  have hwrite : (fun d : DmaChannel => d.writeCntH 1 v) = DmaChannel.withControl v := by
    funext d
    rw [DmaChannel.writeCntH, setLane_one]
    rfl
  simp only [ioWriteByte, hlane, hwrite]
  exact if_congr (by simp [enableFlips]) rfl rfl

end

/-- The channel that an enable edge with this control byte leaves (R495). -/
def DmaChannel.enabled (c : Fin 4) (v : Byte) (d : DmaChannel) : DmaChannel :=
  dmaLatch c (d.withControl v)

section

variable {c : Fin 4} {v : Byte} {b : Bus} (hoff : (b.io.dma.get c).cntH.getLsbD 15 = false) (hon : v.getLsbD 7 = true)
  (r15 : Word)
include hoff hon

theorem dmaEdge_eq :
    ioWriteByte (dmaEnableEdge r15) r15 (0x0BB + 12 * c.val) v b =
      if v.extractLsb' 4 2 = 0#2 then dmaRun 4 [] r15 c (updDma c (DmaChannel.enabled c v) b)
      else updDma c (DmaChannel.enabled c v) b := by
  have htiming : (((b.io.dma.get c).enabled c v).cntH.extractLsb' 12 2 = 0#2) = (v.extractLsb' 4 2 = 0#2) := by
    rw [← withControl_timing (b.io.dma.get c) v]
    rfl
  rw [ioWriteByte_dmaControlHigh, if_pos ⟨hoff, hon⟩, dmaEnableEdge, enableEdgeWith, updDma_updDma]
  simp only [updDma_get_same]
  exact if_congr (iff_of_eq htiming) rfl rfl

/-- An immediate transfer runs whole inside the write. -/
theorem dmaEdge_runs (himm : v.extractLsb' 4 2 = 0#2)
    (havoid : ((b.io.dma.get c).enabled c v).AvoidsIo (dmaCount c (b.io.dma.get c))) (edge : Fin 4 → Bus → Bus) :
    ioWriteByte (dmaEnableEdge r15) r15 (0x0BB + 12 * c.val) v b =
      dmaComplete c (dmaUnits edge r15 c (dmaCount c (b.io.dma.get c))
        (dmaStart c (updDma c (DmaChannel.enabled c v) b))) := by
  have hcount : ((updDma c (DmaChannel.enabled c v) b).io.dma.get c).remaining = dmaCount c (b.io.dma.get c) := by
    rw [updDma_get_same]
    rfl
  rw [dmaEdge_eq hoff hon, if_pos himm, dmaRun_eq _ edge, hcount]
  rwa [hcount, updDma_get_same]

end

/-- The latched channel, with the unit and the count of R492 and R493 written out. -/
theorem DmaChannel.enabled_eq (c : Fin 4) (v : Byte) (d : DmaChannel) :
    d.enabled c v =
      { d with
        cntH := v ++ d.cntH.extractLsb' 0 8
        src := BitVec.ofNat 32 (d.sad.toNat / (if v.getLsbD 2 then 4 else 2) * (if v.getLsbD 2 then 4 else 2))
        dst := BitVec.ofNat 32 (d.dad.toNat / (if v.getLsbD 2 then 4 else 2) * (if v.getLsbD 2 then 4 else 2))
        remaining := if d.cntL ≠ 0#16 then d.cntL.toNat else if c.val = 3 then 0x10000 else 0x4000 } := by
  rw [← withControl_bytes d v, ← dmaCount_eq, ← align_eq_ofNat, ← align_eq_ofNat]
  rfl

end Sys2Proof.Machine
end

section
/-! A transfer of words from EWRAM to OAM: its registers, its words, the rest of storage (spec `50_dma.md` R516). -/

namespace Sys2Proof.Machine

/-! ## Words of plain storage -/

theorem readRaw_of_plain {a : Word} {w : Width} (h : storesPlainly (w.align a) w = true) (b : Bus) (r15 : Word) :
    readRaw b r15 a w = readBytes b.mem (ramKey (w.align a)) w := by
  rw [readRaw_of_not_rom (by rw [← regionOf_align w]; exact storesPlainly_ne_rom h)]
  exact assemble_congr w fun k _ => readLane_of_plain h b r15 k

/-- A unit between two addresses of plain storage copies its bytes. -/
theorem dmaUnit_of_plain {c : Fin 4} {b : Bus} {w : Width} (hw : (b.io.dma.get c).width = w)
    (hsrc : storesPlainly (w.align (b.io.dma.get c).src) w = true)
    (hdst : storesPlainly (w.align (b.io.dma.get c).dst) w = true) (edge : Fin 4 → Bus → Bus) (r15 : Word) :
    dmaUnit edge r15 c b = updDma c (fun d => d.advance w) { b with
      mem := writeBytes b.mem (ramKey (w.align (b.io.dma.get c).dst)) w
        (readBytes b.mem (ramKey (w.align (b.io.dma.get c).src)) w) } := by
  have hrom : regionOf (b.io.dma.get c).src ≠ .rom := by rw [← regionOf_align w]; exact storesPlainly_ne_rom hsrc
  simp only [dmaUnit, hw]
  rw [afterRead_of_not_rom hrom, writeWith_of_plain hdst, readRaw_of_plain hsrc]

theorem dmaUnits_succ (edge : Fin 4 → Bus → Bus) (r15 : Word) (c : Fin 4) (n : Nat) (b : Bus) :
    dmaUnits edge r15 c (n + 1) b = dmaUnit edge r15 c (dmaUnits edge r15 c n b) := by
  induction n generalizing b with
  | zero => rfl
  | succ n ih => exact ih (dmaUnit edge r15 c b)

/-! ## The words of EWRAM and OAM -/

section

variable {base : Word} {j : Nat} (h : base.toNat % 2 ^ 24 + 4 * j < 2 ^ 24)
include h

theorem toNat_wordAt : (wordAt base j).toNat = base.toNat + 4 * j := by
  have := base.isLt
  rw [wordAt, BitVec.toNat_add, BitVec.toNat_ofNat]
  omega

theorem regionOf_wordAt : regionOf (wordAt base j) = regionOf base := by
  have htop : (wordAt base j).extractLsb' 24 8 = base.extractLsb' 24 8 := BitVec.eq_of_toNat_eq <| by
    rw [BitVec.extractLsb'_toNat, BitVec.extractLsb'_toNat, toNat_wordAt h, Nat.shiftRight_eq_div_pow,
      Nat.shiftRight_eq_div_pow]
    omega
  rw [regionOf, regionOf, htop]

theorem align_wordAt (hbase : base.toNat % 4 = 0) : Width.word.align (wordAt base j) = wordAt base j :=
  BitVec.eq_of_toNat_eq <| by
    rw [toNat_align, toNat_wordAt h]
    simp only [Width.bytes]
    omega

end

theorem wordAt_add_four (a : Word) (j : Nat) : wordAt a j + 4#32 = wordAt a (j + 1) := by
  rw [wordAt_succ, wordAt, wordAt, add_right_comm]

section

variable {j : Nat} (hj : j < 0x100)
include hj

theorem ewramWord : storesPlainly (Width.word.align (wordAt 0x02000000#32 j)) .word = true ∧
    ramKey (Width.word.align (wordAt 0x02000000#32 j)) = 0x02000000 + 4 * j := by
  have hin : (0x02000000#32).toNat % 2 ^ 24 + 4 * j < 2 ^ 24 := by simp; omega
  have hregion : regionOf (wordAt 0x02000000#32 j) = .ewram := regionOf_wordAt hin
  rw [align_wordAt hin rfl]
  refine ⟨by rw [storesPlainly, hregion], ?_⟩
  have hoff : (wordAt 0x02000000#32 j &&& 0x3FFFF#32).toNat = 4 * j := by
    rw [toNat_and_mask (n := 18) _ rfl, toNat_wordAt hin]
    simp
    omega
  simp only [ramKey, hregion, hoff]

theorem oamWord : storesPlainly (Width.word.align (wordAt 0x07000000#32 j)) .word = true ∧
    ramKey (Width.word.align (wordAt 0x07000000#32 j)) = 0x07000000 + 4 * j := by
  have hin : (0x07000000#32).toNat % 2 ^ 24 + 4 * j < 2 ^ 24 := by simp; omega
  have hregion : regionOf (wordAt 0x07000000#32 j) = .oam := regionOf_wordAt hin
  rw [align_wordAt hin rfl]
  refine ⟨by rw [storesPlainly, hregion]; rfl, ?_⟩
  have hoff : (wordAt 0x07000000#32 j &&& 0x3FF#32).toNat = 4 * j := by
    rw [toNat_and_mask (n := 10) _ rfl, toNat_wordAt hin]
    simp
    omega
  simp only [ramKey, hregion, hoff]

end

/-! ## The words copied -/

/-- Storage after `k` words of EWRAM are copied to OAM. -/
def copyWords (m : Memory) : Nat → Memory
  | 0 => m
  | k + 1 =>
    writeBytes (copyWords m k) (0x07000000 + 4 * k) .word (readBytes (copyWords m k) (0x02000000 + 4 * k) .word)

theorem copyWords_wf {m : Memory} (h : m.wf) (k : Nat) : (copyWords m k).wf := by
  induction k with
  | zero => exact h
  | succ k ih => exact writeBytes_wf _ _ _ _ ih

theorem read_copyWords {m : Memory} (h : m.wf) {k : Nat} (hk : k ≤ 0x100) (i : Nat) :
    (copyWords m k).read i =
      if 0x07000000 ≤ i ∧ i < 0x07000000 + 4 * k then m.read (i - 0x05000000) else m.read i := by
  induction k generalizing i with
  | zero => rw [if_neg (by omega)]; rfl
  | succ k ih =>
    rw [copyWords]
    by_cases hin : 0x07000000 + 4 * k ≤ i ∧ i < 0x07000000 + 4 * k + 4
    · obtain ⟨lane, rfl⟩ := Nat.exists_eq_add_of_le hin.1
      have hlane : lane < Width.word.bytes := by simp only [Width.bytes]; omega
      rw [read_writeBytes_same _ _ _ _ (copyWords_wf h k) _ hlane, readBytes, lane_assemble _ _ _ hlane,
        ih (by omega), if_neg (by omega), if_pos (by omega)]
      exact congrArg m.read (by omega)
    · rw [read_writeBytes_other _ _ _ _ _ (by simp only [Width.bytes]; omega), ih (by omega)]
      exact if_congr (by omega) rfl rfl

section

variable {m : Memory} (h : m.wf) {n k : Nat} (hn : n ≤ 0x100)
include h hn

theorem readBytes_copyWords_copied (hk : k < n) :
    readBytes (copyWords m n) (0x07000000 + 4 * k) .word = readBytes m (0x02000000 + 4 * k) .word := by
  refine assemble_congr .word fun l hl => ?_
  simp only [Width.bytes] at hl
  rw [read_copyWords h hn, if_pos (by omega)]
  exact congrArg m.read (by omega)

theorem readBytes_copyWords_kept (hk : n ≤ k) :
    readBytes (copyWords m n) (0x07000000 + 4 * k) .word = readBytes m (0x07000000 + 4 * k) .word := by
  refine assemble_congr .word fun l _ => ?_
  rw [read_copyWords h hn, if_neg (by omega)]

end

/-- A byte outside OAM and the I/O file depends on no key of OAM. -/
theorem readRaw_byte_congr_outside_oam {b : Bus} {m : Memory}
    (hm : ∀ i, (i < 0x07000000 ∨ 0x07000400 ≤ i) → m.read i = b.mem.read i) (io : Io) (n : Nat) (r15 : Word) {a : Word}
    (hoam : regionOf a ≠ .oam) (hio : regionOf a ≠ .io) :
    readRaw { b with mem := m, io := io, dmaCycles := n } r15 a .byte = readRaw b r15 a .byte := by
  have hmask (y : Word) (hy : y.toNat < 0x1000000) : (a &&& y).toNat < 0x1000000 := by
    rw [BitVec.toNat_and]
    exact lt_of_le_of_lt Nat.and_le_right hy
  have hkey (hr : (regionOf a).isRam) : ramKey a + 0 < 0x07000000 := by
    rcases hr with hr | hr | hr | hr | hr
    · have := hmask 0x3FFFF#32 (by decide)
      simp only [ramKey, hr]; omega
    · have := hmask 0x7FFF#32 (by decide)
      simp only [ramKey, hr]; omega
    · have := hmask 0x3FF#32 (by decide)
      simp only [ramKey, hr]; omega
    · have := hmask (if a.getLsbD 16 then 0x17FFF#32 else 0x1FFFF#32) (by split <;> decide)
      simp only [ramKey, hr]; omega
    · exact absurd hr hoam
  have hlane : readLane { b with mem := m, io := io, dmaCycles := n } r15 a .byte 0 = readLane b r15 a .byte 0 := by
    unfold readLane
    cases hr : regionOf a
    case io => exact absurd hr hio
    case oam => exact absurd hr hoam
    case bios => rfl
    case unmapped => rfl
    case rom => rfl
    case ewram => exact hm _ (.inl (hkey (.inl hr)))
    case iwram => exact hm _ (.inl (hkey (.inr (.inl hr))))
    case pal => exact hm _ (.inl (hkey (.inr (.inr (.inl hr)))))
    case vram => exact hm _ (.inl (hkey (.inr (.inr (.inr (.inl hr))))))
    case backup =>
      simp only [backupReadByte]
      rw [hm (sramKey _) (.inr (by rw [sramKey]; omega))]
  exact if_congr Iff.rfl rfl (congrArg (·.setWidth 32) hlane)

/-! ## The registers of channel 0 and its run -/

section

variable (b : Bus) (r15 v : Word)

theorem busWrite_dma0Sad : busWrite r15 0x040000B0#32 .word v b = updDma 0 (fun d => { d with sad := v }) b := by
  have hlane : ∀ k < 4, ioLane (0x0B0 + k) = .dmaSad 0 k := by decide
  rw [busWrite_of_io (off := 0x0B0) rfl rfl (by decide)]
  simp only [eachLane, ioWriteByte, hlane 0 (by decide), hlane 1 (by decide), hlane 2 (by decide), hlane 3 (by decide),
    updDma_updDma, setLane_word]

theorem busWrite_dma0Dad : busWrite r15 0x040000B4#32 .word v b = updDma 0 (fun d => { d with dad := v }) b := by
  have hlane : ∀ k < 4, ioLane (0x0B4 + k) = .dmaDad 0 k := by decide
  rw [busWrite_of_io (off := 0x0B4) rfl rfl (by decide)]
  simp only [eachLane, ioWriteByte, hlane 0 (by decide), hlane 1 (by decide), hlane 2 (by decide), hlane 3 (by decide),
    updDma_updDma, setLane_word]

theorem busWrite_dma0Count :
    busWrite r15 0x040000B8#32 .half v b = updDma 0 (fun d => { d with cntL := v.setWidth 16 }) b := by
  have hlanes : setLane (setLane (b.io.dma.get 0).cntL 0 (lane v 0)) 1 (lane v 1) = v.setWidth 16 := by
    rw [setLane_setLane, lanes_half]
  rw [busWrite_of_io (off := 0x0B8) rfl rfl (by decide), ← hlanes]
  rfl

theorem busWrite_dma0Control :
    busWrite r15 0x040000BA#32 .half v b =
      ioWriteByte (dmaEnableEdge r15) r15 0x0BB (lane v 1)
        (updDma 0 (fun d => { d with cntH := d.cntH.extractLsb' 8 8 ++ (lane v 0 &&& 0xE0#8) }) b) := by
  rw [busWrite_of_io (off := 0x0BA) rfl rfl (by decide), ← ioWriteByte_dmaControlLow (dmaEnableEdge r15) r15 0]
  rfl

end

/-- Channel 0 after `k` of the `n` words of a copy from EWRAM to OAM. -/
def copyChannel (n : Nat) (cntH : BitVec 16) (k : Nat) : DmaChannel :=
  ⟨0x02000000#32, 0x07000000#32, BitVec.ofNat 16 n, cntH, wordAt 0x02000000#32 k, wordAt 0x07000000#32 k, n - k⟩

theorem copyChannel_width (n k : Nat) : (copyChannel n 0x8400#16 k).width = .word :=
  if_pos (show (0x8400#16).getLsbD 10 = true by decide)

theorem copyChannel_sstep (n k : Nat) : (copyChannel n 0x8400#16 k).sstep .word = 4#32 := by
  have hstep : BitVec.ofInt 32 (signedStep ((0x8400#16).extractLsb' 7 2) 4) = 4#32 := by decide
  exact (DmaChannel.sstep_eq _ _).trans hstep

theorem copyChannel_dstep (n k : Nat) : (copyChannel n 0x8400#16 k).dstep .word = 4#32 := by
  have hstep : BitVec.ofInt 32 (signedStep ((0x8400#16).extractLsb' 5 2) 4) = 4#32 := by decide
  exact (DmaChannel.dstep_eq _ _).trans hstep

theorem copyChannel_advance (n k : Nat) :
    (copyChannel n 0x8400#16 k).advance .word = copyChannel n 0x8400#16 (k + 1) := by
  rw [DmaChannel.advance, copyChannel_sstep, copyChannel_dstep]
  simp only [copyChannel, wordAt_add_four, Nat.sub_sub]

theorem dmaUnit_copy {b : Bus} {n k : Nat} (hb : b.io.dma.get 0 = copyChannel n 0x8400#16 k) (hk : k < 0x100)
    (edge : Fin 4 → Bus → Bus) (r15 : Word) :
    dmaUnit edge r15 0 b = updDma 0 (fun _ => copyChannel n 0x8400#16 (k + 1)) { b with
      mem := writeBytes b.mem (0x07000000 + 4 * k) .word (readBytes b.mem (0x02000000 + 4 * k) .word) } := by
  obtain ⟨hsrc, hsrcKey⟩ := ewramWord hk
  obtain ⟨hdst, hdstKey⟩ := oamWord hk
  have hsrcAt : (b.io.dma.get 0).src = wordAt 0x02000000#32 k := by rw [hb]; rfl
  have hdstAt : (b.io.dma.get 0).dst = wordAt 0x07000000#32 k := by rw [hb]; rfl
  have hunit := dmaUnit_of_plain (w := .word) (by rw [hb, copyChannel_width]) (by rwa [hsrcAt]) (by rwa [hdstAt]) edge r15
  rw [hunit, hsrcAt, hdstAt, hsrcKey, hdstKey, ← copyChannel_advance, ← hb]
  rfl

/-- The words of a run, one after the other. -/
theorem dmaUnits_copy {b : Bus} {n k : Nat} (hb : b.io.dma.get 0 = copyChannel n 0x8400#16 0) (hk : k ≤ 0x100)
    (edge : Fin 4 → Bus → Bus) (r15 : Word) :
    dmaUnits edge r15 0 k b = updDma 0 (fun _ => copyChannel n 0x8400#16 k) { b with mem := copyWords b.mem k } := by
  induction k with
  | zero => rw [← hb]; rfl
  | succ k ih =>
    rw [dmaUnits_succ, ih (by omega), dmaUnit_copy (updDma_get_same ..) (by omega)]
    rfl

/-- The end of a run that neither raises an interrupt nor repeats (R504, R505). -/
theorem dmaComplete_once {c : Fin 4} {b : Bus} (hirq : (b.io.dma.get c).cntH.getLsbD 14 = false)
    (hrepeat : (b.io.dma.get c).cntH.getLsbD 9 = false) :
    dmaComplete c b = updDma c (fun d => { d with cntH := d.cntH &&& 0x7FFF#16 }) b := by
  simp only [dmaComplete, hirq, updDma, dmaCompleteChannel, hrepeat, Bool.false_eq_true, if_false]

theorem dmaComplete_copy {b : Bus} {n k : Nat} (hb : b.io.dma.get 0 = copyChannel n 0x8400#16 k) :
    dmaComplete 0 b = updDma 0 (fun _ => copyChannel n 0x0400#16 k) b := by
  have hirq : (0x8400#16).getLsbD 14 = false := by decide
  have hrepeat : (0x8400#16).getLsbD 9 = false := by decide
  have hdisabled : 0x8400#16 &&& 0x7FFF#16 = 0x0400#16 := by decide
  rw [dmaComplete_once (by rw [hb]; exact hirq) (by rw [hb]; exact hrepeat), updDma, hb, ← hdisabled]
  rfl

/-! ## The stores that start the copy -/

/-- The registers of a channel before the enable edge of a copy of `n` words. -/
def copyRegisters (n : Nat) (d : DmaChannel) : DmaChannel :=
  { d with
    sad := 0x02000000#32
    dad := 0x07000000#32
    cntL := BitVec.ofNat 16 n
    cntH := d.cntH.extractLsb' 8 8 ++ 0#8 }

theorem copyRegisters_off {d : DmaChannel} (h : d.cntH.getLsbD 15 = false) (n : Nat) :
    (copyRegisters n d).cntH.getLsbD 15 = false := by
  rw [copyRegisters, BitVec.getLsbD_append, if_neg (by decide), BitVec.getLsbD_extractLsb']
  exact h

theorem dmaCount_copyRegisters {n : Nat} (hpos : 0 < n) (hn : n ≤ 0x100) (c : Fin 4) (d : DmaChannel) :
    dmaCount c (copyRegisters n d) = n := by
  have hcount : (BitVec.ofNat 16 n).toNat = n := by rw [BitVec.toNat_ofNat]; omega
  have hne : BitVec.ofNat 16 n ≠ 0#16 := fun h => by
    rw [h] at hcount
    simp at hcount
    omega
  rw [dmaCount_eq, copyRegisters, if_pos hne, hcount]

theorem copyRegisters_enabled {n : Nat} (hpos : 0 < n) (hn : n ≤ 0x100) (d : DmaChannel) :
    (copyRegisters n d).enabled 0 0x84#8 = copyChannel n 0x8400#16 0 := by
  have hcount := dmaCount_copyRegisters hpos hn 0 d
  have hlow : (copyRegisters n d).cntH.extractLsb' 0 8 = 0#8 := lane_append_zero _ _
  have hunit : (if (0x84#8).getLsbD 2 then 4 else 2) = 4 := if_pos (by decide)
  have hcntH : 0x84#8 ++ 0#8 = 0x8400#16 := by decide
  have hsrc : BitVec.ofNat 32 ((0x02000000#32).toNat / 4 * 4) = 0x02000000#32 := by decide
  have hdst : BitVec.ofNat 32 ((0x07000000#32).toNat / 4 * 4) = 0x07000000#32 := by decide
  rw [dmaCount_eq] at hcount
  rw [DmaChannel.enabled_eq, hcount, hlow, hunit, copyChannel, wordAt_zero, wordAt_zero, hcntH]
  simp only [copyRegisters, hsrc, hdst, Nat.sub_zero]

theorem copyChannel_avoidsIo {n : Nat} (hn : n ≤ 0x100) : (copyChannel n 0x8400#16 0).AvoidsIo n := by
  intro k hk
  have hstep : signedStep ((0x8400#16).extractLsb' 5 2) 4 = 4 := by decide
  have hwords : BitVec.ofInt 32 ((k : Int) * 4) = BitVec.ofNat 32 (4 * k) := by
    rw [← BitVec.ofInt_natCast, Nat.cast_mul, mul_comm]
    rfl
  have haddr : (copyChannel n 0x8400#16 0).dst +
      BitVec.ofInt 32 (k * signedStep ((copyChannel n 0x8400#16 0).cntH.extractLsb' 5 2) 4) = wordAt 0x07000000#32 k := by
    show wordAt 0x07000000#32 0 + BitVec.ofInt 32 (k * signedStep ((0x8400#16).extractLsb' 5 2) 4) = _
    rw [wordAt_zero, hstep, hwords, wordAt]
  have hregion : regionOf (wordAt 0x07000000#32 k) = .oam := regionOf_wordAt (by simp; omega)
  rw [copyChannel_width, show Width.word.bytes = 4 from rfl, haddr, hregion]
  decide

/-- The four stores that start a copy of `n` words. -/
def startCopy (r15 : Word) (n : Nat) (b : Bus) : Bus :=
  busWrite r15 0x040000BA#32 .half 0x8400#32 (busWrite r15 0x040000B8#32 .half (BitVec.ofNat 32 n)
    (busWrite r15 0x040000B4#32 .word 0x07000000#32 (busWrite r15 0x040000B0#32 .word 0x02000000#32 b)))

theorem startCopy_edge (r15 : Word) (n : Nat) (b : Bus) :
    startCopy r15 n b = ioWriteByte (dmaEnableEdge r15) r15 0x0BB 0x84#8 (updDma 0 (copyRegisters n) b) := by
  have hcount : (BitVec.ofNat 32 n).setWidth 16 = BitVec.ofNat 16 n := BitVec.setWidth_ofNat_of_le (by decide) n
  rw [startCopy, busWrite_dma0Sad, busWrite_dma0Dad, busWrite_dma0Count, busWrite_dma0Control, updDma_updDma,
    updDma_updDma, updDma_updDma, hcount]
  rfl

section

variable {b : Bus} (hoff : (b.io.dma.get 0).cntH.getLsbD 15 = false) {n : Nat} (hpos : 0 < n) (hn : n ≤ 0x100) (r15 : Word)
include hoff hpos hn

theorem startCopy_runs (edge : Fin 4 → Bus → Bus) :
    startCopy r15 n b = dmaComplete 0 (dmaUnits edge r15 0 n
      (dmaStart 0 (updDma 0 (fun _ => copyChannel n 0x8400#16 0) b))) := by
  have hdma := updDma_get_same 0 (copyRegisters n) b
  have hcount := dmaCount_copyRegisters hpos hn 0 (b.io.dma.get 0)
  have henabled := copyRegisters_enabled hpos hn (b.io.dma.get 0)
  have hrun := dmaEdge_runs (c := 0) (v := 0x84#8) (b := updDma 0 (copyRegisters n) b)
    (by rw [hdma]; exact copyRegisters_off hoff n) (by decide) r15 (by decide)
    (by rw [hdma, hcount, henabled]; exact copyChannel_avoidsIo hn) edge
  rw [hdma, hcount, updDma_updDma] at hrun
  rw [startCopy_edge, ← henabled]
  exact hrun

/-- The whole copy changes storage, the charge and channel 0. -/
theorem startCopy_eq :
    ∃ cycles, startCopy r15 n b =
      updDma 0 (fun _ => copyChannel n 0x0400#16 n) { b with mem := copyWords b.mem n, dmaCycles := cycles } := by
  have hrun := startCopy_runs hoff hpos hn r15 fun _ b => b
  rw [dmaUnits_copy (n := n) (by rw [dmaStart_io, updDma_get_same]) hn, dmaComplete_copy (updDma_get_same ..)] at hrun
  exact ⟨_, hrun⟩

end

/-! ## The three parts of the statement -/

theorem readRaw_oamWord (b : Bus) (r15 : Word) {k : Nat} (hk : k < 0x100) :
    readRaw b r15 (wordAt 0x07000000#32 k) .word = readBytes b.mem (0x07000000 + 4 * k) .word := by
  obtain ⟨hplain, hkey⟩ := oamWord hk
  rw [readRaw_of_plain hplain, hkey]

theorem readRaw_ewramWord (b : Bus) (r15 : Word) {k : Nat} (hk : k < 0x100) :
    readRaw b r15 (wordAt 0x02000000#32 k) .word = readBytes b.mem (0x02000000 + 4 * k) .word := by
  obtain ⟨hplain, hkey⟩ := ewramWord hk
  rw [readRaw_of_plain hplain, hkey]

/-- The condition on destinations with the unit and the latched address written out (R493, R494). -/
theorem enabled_avoidsIo {c : Fin 4} {v : Byte} {d : DmaChannel} {n : Nat}
    (h : ∀ k, k < n → regionOf (BitVec.ofNat 32
        (d.dad.toNat / (if v.getLsbD 2 then 4 else 2) * (if v.getLsbD 2 then 4 else 2)) +
      BitVec.ofInt 32 (k * signedStep (d.cntH.extractLsb' 5 2) (if v.getLsbD 2 then 4 else 2))) ≠ .io) :
    (d.enabled c v).AvoidsIo n := by
  have hdst := congrArg DmaChannel.dst (DmaChannel.enabled_eq c v d)
  have hmode : (d.enabled c v).cntH.extractLsb' 5 2 = d.cntH.extractLsb' 5 2 := withControl_dstMode d v
  have hbytes : (d.enabled c v).width.bytes = if v.getLsbD 2 then 4 else 2 := withControl_bytes d v
  intro k hk
  rw [hdst, hmode, hbytes]
  exact h k hk

/-- Settles O49: the control bytes, the run that avoids the I/O file, and a copy of words from EWRAM to OAM. -/
theorem dmaEnableEdgeLatches : Obligations.DmaEnableEdgeLatches := by
  refine ⟨fun edge b r15 c v => ioWriteByte_dmaControlLow edge r15 c v b, fun b r15 c v => ?_,
    fun b r15 n hwf hoff hpos hn => ?_⟩
  · have henabled := DmaChannel.enabled_eq c v (b.io.dma.get c)
    refine ⟨fun h => ?_, fun hoff hon htiming => ?_, fun hoff hon himm havoid edge => ?_⟩
    · have hno : ¬ ((b.io.dma.get c).cntH.getLsbD 15 = false ∧ v.getLsbD 7 = true) := fun ⟨hoff, hon⟩ =>
        h.elim (by rw [hoff]; decide) (by rw [hon]; decide)
      rw [ioWriteByte_dmaControlHigh, if_neg hno]
      rfl
    · rw [dmaEdge_eq hoff hon, if_neg htiming, updDma, henabled]
      rfl
    · rw [← dmaCount_eq c (b.io.dma.get c)] at henabled havoid ⊢
      rw [dmaEdge_runs hoff hon r15 himm (enabled_avoidsIo havoid) edge, dmaStart_eq, updDma_get_same]
      simp only [updDma, henabled]
  · obtain ⟨cycles, hcopy⟩ := startCopy_eq hoff hpos hn r15
    rw [startCopy] at hcopy
    rw [hcopy]
    refine ⟨fun k hk => ?_, fun k hk hk' => ?_, fun a hoam hio => ?_, ?_, fun c hc => Four.get_set_other _ hc _, rfl⟩
    · refine (readRaw_oamWord _ r15 (by omega)).trans ?_
      exact (readBytes_copyWords_copied hwf hn hk).trans (readRaw_ewramWord b r15 (by omega)).symm
    · refine (readRaw_oamWord _ r15 hk').trans ?_
      exact (readBytes_copyWords_kept hwf hn hk).trans (readRaw_oamWord b r15 hk').symm
    · refine readRaw_byte_congr_outside_oam (b := b) (m := copyWords b.mem n) (fun i hi => ?_) _ cycles r15 hoam hio
      rw [read_copyWords hwf hn, if_neg (by omega)]
    · rw [updDma_get_same, copyChannel, Nat.sub_self]
      rfl

end Sys2Proof.Machine
end

section
/-! The service of a FIFO at an overflow of its timer (spec `50_dma.md` R510-R515, `22_io_registers.md` R180, R181). -/

namespace Sys2Proof.Machine

/-! ## The two FIFOs -/

/-- FIFO A or FIFO B. -/
inductive Fifo where
  | a
  | b

/-- The register a FIFO is written at (R181). -/
def Fifo.reg : Fifo → Word
  | .a => 0x040000A0#32
  | .b => 0x040000A4#32

/-- The level of one FIFO changed. -/
def Fifo.update (x : Fifo) (f : Nat → Nat) (io : Io) : Io :=
  match x with
  | .a => { io with fifoA := f io.fifoA }
  | .b => { io with fifoB := f io.fifoB }

/-- The level of a FIFO after one more word, 32 bytes at most (R181). -/
def feedWord (level : Nat) : Nat := min 32 (level + 4)

theorem feedWord_four (level : Nat) : feedWord^[4] level = min 32 (level + 16) := by
  show min 32 (min 32 (min 32 (min 32 (level + 4) + 4) + 4) + 4) = _
  omega

theorem fifoAppend_four (level : Nat) : fifoAppend (fifoAppend (fifoAppend (fifoAppend level))) = feedWord level := by
  simp only [fifoAppend, feedWord]
  omega

theorem busWrite_fifo (x : Fifo) (r15 v : Word) (b : Bus) :
    busWrite r15 x.reg .word v b = { b with io := x.update feedWord b.io } := by
  cases x
  case a =>
    have hlane : ∀ k < 4, ioLane (0x0A0 + k) = .fifoA := by decide
    rw [busWrite_of_io (off := 0x0A0) rfl rfl (by decide), Fifo.update, ← fifoAppend_four]
    simp only [eachLane, ioWriteByte, hlane 0 (by decide), hlane 1 (by decide), hlane 2 (by decide), hlane 3 (by decide)]
  case b =>
    have hlane : ∀ k < 4, ioLane (0x0A4 + k) = .fifoB := by decide
    rw [busWrite_of_io (off := 0x0A4) rfl rfl (by decide), Fifo.update, ← fifoAppend_four]
    simp only [eachLane, ioWriteByte, hlane 0 (by decide), hlane 1 (by decide), hlane 2 (by decide), hlane 3 (by decide)]

/-! ## Four words (R511, R512) -/

/-- A channel after `n` words of a service. -/
def DmaChannel.served (n : Nat) (d : DmaChannel) : DmaChannel :=
  { d with src := d.src + BitVec.ofInt 32 (n * signedStep (d.cntH.extractLsb' 7 2) 4) }

theorem DmaChannel.served_fifoServed (d : DmaChannel) : FifoServed d (d.served 4) :=
  ⟨rfl, rfl, rfl, rfl, rfl, rfl, rfl⟩

theorem DmaChannel.served_zero (d : DmaChannel) : d.served 0 = d := by
  simp [DmaChannel.served]

theorem DmaChannel.served_succ (d : DmaChannel) (n : Nat) :
    d.served (n + 1) = { d.served n with src := (d.served n).src + (d.served n).sstep .word } := by
  have hsteps : ((n + 1 : Nat) : Int) * signedStep (d.cntH.extractLsb' 7 2) 4 =
      n * signedStep (d.cntH.extractLsb' 7 2) 4 + signedStep (d.cntH.extractLsb' 7 2) 4 := by
    push_cast
    ring
  rw [DmaChannel.sstep_eq, DmaChannel.served, hsteps, BitVec.ofInt_add, ← BitVec.add_assoc]
  rfl

/-- The I/O file after `n` words that feed a FIFO from a channel. -/
def Fifo.fed (x : Fifo) (c : Fin 4) (n : Nat) (io : Io) : Io :=
  { x.update feedWord^[n] io with dma := io.dma.set c ((io.dma.get c).served n) }

theorem Fifo.fed_zero (x : Fifo) (c : Fin 4) (io : Io) : x.fed c 0 io = io := by
  rw [Fifo.fed, DmaChannel.served_zero, Four.set_get]
  cases x <;> rfl

section

variable (x : Fifo) {c : Fin 4} {b : Bus} (r15 : Word)

theorem fifoDmaUnit_io :
    (fifoDmaUnit r15 c x.reg b).io = { x.update feedWord b.io with
      dma := b.io.dma.set c
        { b.io.dma.get c with src := (b.io.dma.get c).src + (b.io.dma.get c).sstep .word } } := by
  simp only [fifoDmaUnit, updDma, busWrite_fifo, afterRead_io]
  cases x <;> rfl

/-- One more word. -/
theorem fifoDmaUnit_fed {n : Nat} {io : Io} (hb : b.io = x.fed c n io) :
    (fifoDmaUnit r15 c x.reg b).io = x.fed c (n + 1) io := by
  have hdma : b.io.dma = io.dma.set c ((io.dma.get c).served n) := by rw [hb]; rfl
  have hset (d e : DmaChannel) : (io.dma.set c d).set c e = io.dma.set c e := by fin_cases c <;> rfl
  rw [fifoDmaUnit_io, hdma, Four.get_set_same, hset, ← DmaChannel.served_succ, hb, Fifo.fed, Fifo.fed,
    Function.iterate_succ']
  cases x <;> rfl

/-- The whole service of an armed channel. -/
theorem fifoDma_fed (harmed : (b.io.dma.get c).armed 3#2 = true) :
    (fifoDma r15 c x.reg b).io = x.fed c 4 b.io := by
  have hstart : (chargeDma c 4 b).io = x.fed c 0 b.io := (x.fed_zero c b.io).symm
  have hunit {n : Nat} {b' : Bus} (h : b'.io = x.fed c n b.io) := fifoDmaUnit_fed x r15 h
  rw [fifoDma, if_pos harmed]
  exact hunit (hunit (hunit (hunit hstart)))

end

/-! ## An overflow (R515) -/

theorem armed_iff (d : DmaChannel) : d.armed 3#2 = true ↔ fifoArmed d := by
  simp [DmaChannel.armed, fifoArmed]

/-- The part of an overflow that both FIFOs share: a byte taken, then the service at 16 bytes or fewer. -/
def Fifo.overflow (x : Fifo) (r15 : Word) (c : Fin 4) (level : Nat) (b : Bus) : Bus :=
  let b := { b with io := x.update (· - 1) b.io }
  if level - 1 ≤ 16 then fifoDma r15 c x.reg b else b

theorem fifoOverflowA_of_clocked {t : Fin 4} {b : Bus} (h : (b.io.soundcntH.getLsbD 10).toNat = t.val) (r15 : Word) :
    fifoOverflowA r15 t b = Fifo.a.overflow r15 1 b.io.fifoA b :=
  if_pos h

theorem fifoOverflowB_of_clocked {t : Fin 4} {b : Bus} (h : (b.io.soundcntH.getLsbD 14).toNat = t.val) (r15 : Word) :
    fifoOverflowB r15 t b = Fifo.b.overflow r15 2 b.io.fifoB b :=
  if_pos h

section

variable (x : Fifo) (r15 : Word) {c : Fin 4} {level : Nat} {b : Bus}

theorem Fifo.overflow_serves (harmed : fifoArmed (b.io.dma.get c)) (hlevel : level - 1 ≤ 16) :
    (x.overflow r15 c level b).io = x.fed c 4 (x.update (· - 1) b.io) := by
  have hdma : (x.update (· - 1) b.io).dma = b.io.dma := by cases x <;> rfl
  refine (congrArg Bus.io (if_pos hlevel)).trans (fifoDma_fed x r15 ?_)
  rw [hdma]
  exact (armed_iff _).mpr harmed

/-- A channel that is not armed, and a FIFO that holds more than 16 bytes, are not served. -/
theorem Fifo.overflow_takes (h : ¬ (fifoArmed (b.io.dma.get c) ∧ level - 1 ≤ 16)) :
    x.overflow r15 c level b = { b with io := x.update (· - 1) b.io } := by
  have hdma : (x.update (· - 1) b.io).dma = b.io.dma := by cases x <;> rfl
  unfold Fifo.overflow
  split
  case isTrue hlevel =>
    refine if_neg fun harmed => h ⟨(armed_iff _).mp ?_, hlevel⟩
    rwa [hdma] at harmed
  case isFalse => rfl

end

/-- Settles O53: the byte taken, then the service of an armed channel at 16 bytes or fewer. -/
theorem fifoService : Obligations.FifoService := by
  intro r15 t b
  refine ⟨rfl, ⟨fun hother => if_neg hother, fun hclock ⟨harmed, hlevel⟩ => ?_, fun hclock hno => ?_⟩,
    ⟨fun hother => if_neg hother, fun hclock ⟨harmed, hlevel⟩ => ?_, fun hclock hno => ?_⟩⟩
  · rw [fifoOverflowA_of_clocked hclock, Fifo.overflow_serves .a r15 harmed hlevel, Fifo.fed, Four.get_set_same]
    exact ⟨feedWord_four _, rfl, DmaChannel.served_fifoServed _⟩
  · rw [fifoOverflowA_of_clocked hclock, Fifo.overflow_takes .a r15 hno]
    rfl
  · rw [fifoOverflowB_of_clocked hclock, Fifo.overflow_serves .b r15 harmed hlevel, Fifo.fed, Four.get_set_same]
    exact ⟨feedWord_four _, rfl, DmaChannel.served_fifoServed _⟩
  · rw [fifoOverflowB_of_clocked hclock, Fifo.overflow_takes .b r15 hno]
    rfl

end Sys2Proof.Machine
end

section
/-! Fields placed in a word by the encoder, read back by the decoder: bits, masks and fields of `put`, `putBit` and `put16`, and
the two-way tables of conditions and shift types (spec `30_encoding.md` R221, R237). -/

namespace Sys2Proof

section

variable {n m k lo len : Nat} (v : BitVec n)

/-! ## A field shifted into a word of any width -/

theorem extractLsb'_placed (h : lo + n ≤ m) : (v.setWidth m <<< lo).extractLsb' lo n = v := by
  ext j hj
  have hin : lo + j < m := by omega
  simp [hj, hin]

theorem getElem_placed_of_disjoint (hk : k < m) (h : k < lo ∨ lo + n ≤ k) : (v.setWidth m <<< lo)[k] = false := by
  rcases h with h | h
  · simp [h]
  · simp [BitVec.getLsbD_of_ge v (k - lo) (by omega)]

theorem extractLsb'_placed_of_disjoint (h : k + len ≤ lo ∨ lo + n ≤ k) :
    (v.setWidth m <<< lo).extractLsb' k len = 0#len := by
  ext j hj
  rw [BitVec.getElem_extractLsb', BitVec.getElem_zero]
  by_cases hm : k + j < m
  · rw [BitVec.getLsbD_eq_getElem hm, getElem_placed_of_disjoint v hm (by omega)]
  · exact BitVec.getLsbD_of_ge _ _ (by omega)

theorem placed_and_of_disjoint {mask : BitVec m} (h : mask.extractLsb' lo n = 0#n) : v.setWidth m <<< lo &&& mask = 0#m := by
  ext j hj
  rw [BitVec.getElem_and, BitVec.getElem_zero, Bool.and_eq_false_iff]
  by_cases hin : lo ≤ j ∧ j < lo + n
  · have hmask : mask.getLsbD (lo + (j - lo)) = false := by
      have hbit := congrArg (·.getLsbD (j - lo)) h
      simpa [show j - lo < n by omega] using hbit
    rw [Nat.add_sub_cancel' hin.1, BitVec.getLsbD_eq_getElem hj] at hmask
    exact .inr hmask
  · exact .inl (getElem_placed_of_disjoint v hj (by omega))

/-- A value is its two parts put together. -/
theorem append_extractLsb'_low (v : BitVec (n + lo)) : v.extractLsb' lo n ++ v.extractLsb' 0 lo = v :=
  (BitVec.extractLsb'_append_extractLsb'_eq_extractLsb' (Nat.zero_add lo).symm).trans BitVec.extractLsb'_eq_self

/-! ## ARM words -/

@[simp] theorem extractLsb'_put (h : lo + n ≤ 32) : (put lo v).extractLsb' lo n = v :=
  extractLsb'_placed v h

@[simp] theorem extractLsb'_put_of_disjoint (h : k + len ≤ lo ∨ lo + n ≤ k) : (put lo v).extractLsb' k len = 0#len :=
  extractLsb'_placed_of_disjoint v h

@[simp] theorem getElem_put_of_disjoint (hk : k < 32) (h : k < lo ∨ lo + n ≤ k) : (put lo v)[k] = false :=
  getElem_placed_of_disjoint v hk h

@[simp] theorem put_and_of_disjoint {mask : BitVec 32} (h : mask.extractLsb' lo n = 0#n) : put lo v &&& mask = 0#32 :=
  placed_and_of_disjoint v h

@[simp] theorem getElem_putBit (b : Bool) (h : lo < 32) : (putBit lo b)[lo] = b := by
  simp [putBit, put]

@[simp] theorem getElem_putBit_of_ne (b : Bool) (hk : k < 32) (h : k ≠ lo) : (putBit lo b)[k] = false :=
  getElem_put_of_disjoint _ hk (by omega)

@[simp] theorem extractLsb'_putBit_of_disjoint (b : Bool) (h : k + len ≤ lo ∨ lo + 1 ≤ k) :
    (putBit lo b).extractLsb' k len = 0#len :=
  extractLsb'_put_of_disjoint _ h

@[simp] theorem putBit_and_of_disjoint (b : Bool) {mask : BitVec 32} (h : mask.extractLsb' lo 1 = 0#1) :
    putBit lo b &&& mask = 0#32 :=
  put_and_of_disjoint _ h

/-! ## Thumb words -/

@[simp] theorem extractLsb'_put16 (h : lo + n ≤ 16) : (put16 lo v).extractLsb' lo n = v :=
  extractLsb'_placed v h

@[simp] theorem extractLsb'_put16_of_disjoint (h : k + len ≤ lo ∨ lo + n ≤ k) : (put16 lo v).extractLsb' k len = 0#len :=
  extractLsb'_placed_of_disjoint v h

@[simp] theorem getElem_put16_of_disjoint (hk : k < 16) (h : k < lo ∨ lo + n ≤ k) : (put16 lo v)[k] = false :=
  getElem_placed_of_disjoint v hk h

@[simp] theorem put16_and_of_disjoint {mask : BitVec 16} (h : mask.extractLsb' lo n = 0#n) : put16 lo v &&& mask = 0#16 :=
  placed_and_of_disjoint v h

end

/-! ## Named fields -/

@[simp] theorem Cond.ofBits_toBits (c : Cond) : Cond.ofBits c.toBits = c := by
  cases c <;> rfl

theorem Cond.toBits_ne_of_ne_nv {c : Cond} (h : c ≠ .nv) : c.toBits ≠ 0xF#4 := by
  revert h
  cases c <;> decide

@[simp] theorem ShiftType.ofBits_toBits (t : ShiftType) : ShiftType.ofBits t.toBits = t := by
  cases t <;> rfl

end Sys2Proof
end

section
/-! ARM words: the class a word decodes in, by its rows of mask and match, and the encoding of each class read back (spec
`30_encoding.md` R222-R238). -/

namespace Sys2Proof.Machine

/-! ## The classes (R222) -/

section

variable {w : BitVec 32}

/-- One bit keeps a word out of a row. -/
theorem and_ne_of_bit {m v : BitVec 32} {k : Nat} (hk : m.getLsbD k = true) (h : w.getLsbD k ≠ v.getLsbD k) : w &&& m ≠ v :=
  fun hrow => h (getLsbD_of_row hrow hk)

theorem decodeArm_bx (h : w &&& 0x0FFFFFF0#32 = 0x012FFF10#32) :
    decodeArm w = .armBx (Cond.ofBits (w.extractLsb' 28 4)) (w.extractLsb' 0 4) := by
  simp (disch := decide) [decodeArm, matchesRow_eq_true h]

theorem decodeArm_block (h : w &&& 0x0E000000#32 = 0x08000000#32) :
    decodeArm w = if w.getLsbD 20 then
        .armLdm (Cond.ofBits (w.extractLsb' 28 4)) (decodeBlockMode w) (w.extractLsb' 16 4) (w.extractLsb' 0 16)
      else .armStm (Cond.ofBits (w.extractLsb' 28 4)) (decodeBlockMode w) (w.extractLsb' 16 4) (w.extractLsb' 0 16) := by
  simp (disch := decide) [decodeArm, matchesRow_eq_false h, matchesRow_eq_true h]

theorem decodeArm_branch (h : w &&& 0x0E000000#32 = 0x0A000000#32) :
    decodeArm w = if w.getLsbD 24 then .armBl (Cond.ofBits (w.extractLsb' 28 4)) (w.extractLsb' 0 24)
      else .armB (Cond.ofBits (w.extractLsb' 28 4)) (w.extractLsb' 0 24) := by
  simp (disch := decide) [decodeArm, matchesRow_eq_false h, matchesRow_eq_true h]

theorem decodeArm_swi (h : w &&& 0x0F000000#32 = 0x0F000000#32) :
    decodeArm w = .armSwi (Cond.ofBits (w.extractLsb' 28 4)) (w.extractLsb' 0 24) := by
  simp (disch := decide) [decodeArm, matchesRow_eq_false h, matchesRow_eq_true h]

theorem decodeArm_und (h : w &&& 0x0E000010#32 = 0x06000010#32) :
    decodeArm w = .armUnd (Cond.ofBits (w.extractLsb' 28 4)) := by
  simp (disch := decide) [decodeArm, matchesRow_eq_false h, matchesRow_eq_true h]

/-- A register offset with w[4] = 1 is the Undefined class. -/
theorem decodeArm_transfer (h : w &&& 0x0C000000#32 = 0x04000000#32) (hund : w.getLsbD 25 = false ∨ w.getLsbD 4 = false) :
    decodeArm w =
      let c := Cond.ofBits (w.extractLsb' 28 4)
      let rn := w.extractLsb' 16 4
      let rd := w.extractLsb' 12 4
      if w.getLsbD 20 then
        if w.getLsbD 22 then .armLdrb c (decodeIndexing w) rn rd (decodeOffset12 w)
        else .armLdr c (decodeIndexing w) rn rd (decodeOffset12 w)
      else
        if w.getLsbD 22 then .armStrb c (decodeIndexing w) rn rd (decodeOffset12 w)
        else .armStr c (decodeIndexing w) rn rd (decodeOffset12 w) := by
  have hu : w &&& 0x02000010#32 ≠ 0x02000010#32 := by
    rcases hund with hb | hb
    · exact and_ne_of_bit (k := 25) rfl (by rw [hb]; decide)
    · exact and_ne_of_bit (k := 4) rfl (by rw [hb]; decide)
  simp (disch := decide) only [decodeArm, matchesRow_eq_false h, matchesRow_eq_true h, matchesRow_eq_false_of_wider hu,
    if_true, if_false, Bool.false_eq_true]
  cases w.getLsbD 20 <;> cases w.getLsbD 22 <;> rfl

theorem decodeArm_swap (h : w &&& 0x0FB00FF0#32 = 0x01000090#32) :
    decodeArm w = if w.getLsbD 22 then
        .armSwpb (Cond.ofBits (w.extractLsb' 28 4)) (w.extractLsb' 16 4) (w.extractLsb' 12 4) (w.extractLsb' 0 4)
      else .armSwp (Cond.ofBits (w.extractLsb' 28 4)) (w.extractLsb' 16 4) (w.extractLsb' 12 4) (w.extractLsb' 0 4) := by
  simp (disch := decide) [decodeArm, matchesRow_eq_false h, matchesRow_eq_true h]

theorem decodeArm_multiply (h : w &&& 0x0FC000F0#32 = 0x00000090#32 ∨ w &&& 0x0F8000F0#32 = 0x00800090#32) :
    decodeArm w = decodeMultiply w := by
  rcases h with h | h <;> simp (disch := decide) [decodeArm, matchesRow_eq_false h, matchesRow_eq_true h]

/-- With S = 1 or H = 1 a word of the halfword rows is no swap and no multiply. -/
theorem decodeArm_halfword (h : w &&& 0x0E000090#32 = 0x00000090#32) (hsh : w.getLsbD 6 = true ∨ w.getLsbD 5 = true) :
    decodeArm w = decodeHalfSigned w := by
  have hs : w &&& 0x00000060#32 ≠ 0#32 := by
    rcases hsh with hb | hb
    · exact and_ne_of_bit (k := 6) rfl (by rw [hb]; decide)
    · exact and_ne_of_bit (k := 5) rfl (by rw [hb]; decide)
  simp (disch := decide) [decodeArm, matchesRow_eq_false h, matchesRow_eq_true h, matchesRow_eq_false_of_wider hs]

/-- With w[25] = 1 or w[4] = 0 a word of the PSR row is no BX, swap, multiply or halfword transfer. -/
theorem decodeArm_psrTransfer (h : w &&& 0x0D900000#32 = 0x01000000#32) (h4 : w.getLsbD 25 = true ∨ w.getLsbD 4 = false) :
    decodeArm w = decodePsrTransfer w := by
  have hr : w &&& 0x02000010#32 ≠ 0x00000010#32 := by
    rcases h4 with hb | hb
    · exact and_ne_of_bit (k := 25) rfl (by rw [hb]; decide)
    · exact and_ne_of_bit (k := 4) rfl (by rw [hb]; decide)
  simp (disch := decide) [decodeArm, matchesRow_eq_false h, matchesRow_eq_true h, matchesRow_eq_false_of_wider hr]

/-- An operand that is immediate or has w[7] = 0 or w[4] = 0 keeps a word out of the multiply and transfer rows. -/
theorem decodeArm_dataProcessing (h : w &&& 0x0C000000#32 = 0#32) (hpsr : w &&& 0x0D900000#32 ≠ 0x01000000#32)
    (hop : w.getLsbD 25 = true ∨ w.getLsbD 7 = false ∨ w.getLsbD 4 = false) : decodeArm w = decodeDataProcessing w := by
  have hr : w &&& 0x02000090#32 ≠ 0x00000090#32 := by
    rcases hop with hb | hb | hb
    · exact and_ne_of_bit (k := 25) rfl (by rw [hb]; decide)
    · exact and_ne_of_bit (k := 7) rfl (by rw [hb]; decide)
    · exact and_ne_of_bit (k := 4) rfl (by rw [hb]; decide)
  simp (disch := decide) [decodeArm, matchesRow_eq_false h, matchesRow_eq_true h, matchesRow_eq_false_of_wider hpsr,
    matchesRow_eq_false_of_wider hr]

end

/-! ## Encodings read back -/

theorem decodeArm_encodeBlock (c : Cond) (l : Bool) (m : BlockMode) (rn : Reg) (list : BitVec 16) :
    decodeArm (encodeBlock c (putBit 20 l) m rn list) = if l then .armLdm c m rn list else .armStm c m rn list := by
  have hrow : encodeBlock c (putBit 20 l) m rn list &&& 0x0E000000#32 = 0x08000000#32 := by
    simp [encodeBlock, encodeBlockMode, BitVec.and_or_distrib_right]
  rw [decodeArm_block hrow]
  simp [encodeBlock, encodeBlockMode, decodeBlockMode, BitVec.extractLsb'_or]

theorem decodeArm_encodeTransfer (c : Cond) (b l : Bool) (ix : Indexing) (rn rd : Reg) (off : Offset12) :
    decodeArm (encodeTransfer c (putBit 22 b ||| putBit 20 l) ix rn rd off) =
      if l then if b then .armLdrb c ix rn rd off else .armLdr c ix rn rd off
      else if b then .armStrb c ix rn rd off else .armStr c ix rn rd off := by
  have hrow : encodeTransfer c (putBit 22 b ||| putBit 20 l) ix rn rd off &&& 0x0C000000#32 = 0x04000000#32 := by
    cases off <;> simp [encodeTransfer, encodeIndexing, encodeOffset12, BitVec.and_or_distrib_right]
  rw [decodeArm_transfer hrow]
  · cases off <;>
      simp [encodeTransfer, encodeIndexing, encodeOffset12, decodeIndexing, decodeOffset12, BitVec.extractLsb'_or]
  · cases off
    case imm => exact .inl (by simp [encodeTransfer, encodeIndexing, encodeOffset12])
    case reg => exact .inr (by simp [encodeTransfer, encodeIndexing, encodeOffset12])

theorem decodeArm_encodeMultiply_short (c : Cond) (a s : Bool) (rd rn rs rm : Reg) :
    decodeArm (encodeMultiply c (putBit 21 a) s rd rn rs rm) = if a then .armMla c s rd rn rs rm else .armMul c s rd rs rm := by
  have hrow : encodeMultiply c (putBit 21 a) s rd rn rs rm &&& 0x0FC000F0#32 = 0x00000090#32 := by
    simp [encodeMultiply, BitVec.and_or_distrib_right]
  rw [decodeArm_multiply (.inl hrow)]
  cases a <;> simp [encodeMultiply, decodeMultiply, BitVec.extractLsb'_or]

theorem decodeArm_encodeMultiply_long (c : Cond) (u a s : Bool) (rdHi rdLo rs rm : Reg) :
    decodeArm (encodeMultiply c (0x00800000#32 ||| putBit 22 u ||| putBit 21 a) s rdHi rdLo rs rm) =
      if u then if a then .armSmlal c s rdHi rdLo rs rm else .armSmull c s rdHi rdLo rs rm
      else if a then .armUmlal c s rdHi rdLo rs rm else .armUmull c s rdHi rdLo rs rm := by
  have hrow : encodeMultiply c (0x00800000#32 ||| putBit 22 u ||| putBit 21 a) s rdHi rdLo rs rm &&& 0x0F8000F0#32 =
      0x00800090#32 := by
    simp [encodeMultiply, BitVec.and_or_distrib_right]
  rw [decodeArm_multiply (.inr hrow)]
  cases u <;> cases a <;> simp [encodeMultiply, decodeMultiply, BitVec.extractLsb'_or]

section

variable (c : Cond) (l s h : Bool) (ix : Indexing) (rn rd : Reg) (off : Offset8)

/-- Every field of a halfword or signed transfer word (R233). -/
theorem encodeHalfSigned_fields :
    let w := encodeHalfSigned c (putBit 20 l ||| putBit 6 s ||| putBit 5 h) ix rn rd off
    w.extractLsb' 28 4 = c.toBits ∧ w.getLsbD 20 = l ∧ w.getLsbD 6 = s ∧ w.getLsbD 5 = h ∧ decodeIndexing w = ix ∧
      w.extractLsb' 16 4 = rn ∧ w.extractLsb' 12 4 = rd ∧ decodeOffset8 w = off := by
  have hnibbles (v : BitVec 8) : v.extractLsb' 4 4 ++ v.extractLsb' 0 4 = v :=
    append_extractLsb'_low (n := 4) (lo := 4) v
  cases off <;>
    simp [encodeHalfSigned, encodeIndexing, encodeOffset8, decodeIndexing, decodeOffset8, BitVec.extractLsb'_or, hnibbles]

theorem decodeArm_encodeHalfSigned (hsh : s = true ∨ h = true) :
    decodeArm (encodeHalfSigned c (putBit 20 l ||| putBit 6 s ||| putBit 5 h) ix rn rd off) =
      if h then
        if s then if l then .armLdrsh c ix rn rd off else .armStrdPosition c ix rn rd off
        else if l then .armLdrh c ix rn rd off else .armStrh c ix rn rd off
      else if l then .armLdrsb c ix rn rd off else .armLdrdPosition c ix rn rd off := by
  have hrow : encodeHalfSigned c (putBit 20 l ||| putBit 6 s ||| putBit 5 h) ix rn rd off &&& 0x0E000090#32 =
      0x00000090#32 := by
    cases off <;> simp [encodeHalfSigned, encodeIndexing, encodeOffset8, BitVec.and_or_distrib_right]
  obtain ⟨hc, hl, hs, hh, hix, hrn, hrd, hoff⟩ := encodeHalfSigned_fields c l s h ix rn rd off
  rw [decodeArm_halfword hrow (by rwa [hs, hh])]
  simp only [decodeHalfSigned, hc, hl, hs, hh, hix, hrn, hrd, hoff, Cond.ofBits_toBits]
  rcases hsh with rfl | rfl
  · cases l <;> cases h <;> rfl
  · cases l <;> cases s <;> rfl

end

section

variable (c : Cond) (opcode : BitVec 4) (s : Bool) (rn rd : Reg) (o : Operand2)

/-- Every field of a data-processing word (R235). -/
theorem encodeDataProcessing_fields :
    let w := encodeDataProcessing c opcode s rn rd o
    w.extractLsb' 28 4 = c.toBits ∧ w.extractLsb' 21 4 = opcode ∧ w[20] = s ∧ w.extractLsb' 16 4 = rn ∧
      w.extractLsb' 12 4 = rd ∧ decodeOperand2 w = o := by
  cases o <;> simp [encodeDataProcessing, encodeOperand2, decodeOperand2, BitVec.extractLsb'_or]

/-- The positions of the four tests without S are the PSR transfers; every other data-processing word comes to its
sub-decoder. -/
theorem decodeArm_encodeDataProcessing (htest : opcode[3] = true → opcode[2] = false → s = true) :
    decodeArm (encodeDataProcessing c opcode s rn rd o) = decodeDataProcessing (encodeDataProcessing c opcode s rn rd o) := by
  refine decodeArm_dataProcessing ?_ (fun hpsr => ?_) ?_
  · cases o <;> simp [encodeDataProcessing, encodeOperand2, BitVec.and_or_distrib_right]
  · obtain ⟨-, hop, hs, -⟩ := encodeDataProcessing_fields c opcode s rn rd o
    have h3 : opcode[3] = true := by
      rw [← hop, BitVec.getElem_extractLsb', getLsbD_of_row hpsr rfl]
      rfl
    have h2 : opcode[2] = false := by
      rw [← hop, BitVec.getElem_extractLsb', getLsbD_of_row hpsr rfl]
      rfl
    have h20 : s = false := hs.symm.trans (getLsbD_of_row hpsr rfl)
    exact Bool.false_ne_true (h20.symm.trans (htest h3 h2))
  · cases o
    case imm => exact .inl (by simp [encodeDataProcessing, encodeOperand2])
    case shiftImm => exact .inr (.inr (by simp [encodeDataProcessing, encodeOperand2]))
    case shiftReg => exact .inr (.inl (by simp [encodeDataProcessing, encodeOperand2]))

end

/-- Every ARM instruction is what its word decodes to. -/
theorem decodeArm_encodeArm {i : Instr} (h : i.isThumb = false) : decodeArm (encodeArm i) = i := by
  cases i
  case armBx c rn =>
    rw [encodeArm, decodeArm_bx (by simp [BitVec.and_or_distrib_right])]
    simp [BitVec.extractLsb'_or]
  case armLdm c m rn list => exact decodeArm_encodeBlock c true m rn list
  case armStm c m rn list => exact decodeArm_encodeBlock c false m rn list
  case armB c off | armBl c off =>
    rw [encodeArm, decodeArm_branch (by simp [BitVec.and_or_distrib_right])]
    simp [BitVec.extractLsb'_or]
  case armSwi c comment =>
    rw [encodeArm, decodeArm_swi (by simp [BitVec.and_or_distrib_right])]
    simp [BitVec.extractLsb'_or]
  case armUnd c =>
    rw [encodeArm, decodeArm_und (by simp [BitVec.and_or_distrib_right])]
    simp [BitVec.extractLsb'_or]
  case armLdr c ix rn rd off => exact decodeArm_encodeTransfer c false true ix rn rd off
  case armLdrb c ix rn rd off => exact decodeArm_encodeTransfer c true true ix rn rd off
  case armStr c ix rn rd off => exact decodeArm_encodeTransfer c false false ix rn rd off
  case armStrb c ix rn rd off => exact decodeArm_encodeTransfer c true false ix rn rd off
  case armSwp c rn rd rm | armSwpb c rn rd rm =>
    rw [encodeArm, decodeArm_swap (by simp [BitVec.and_or_distrib_right])]
    simp [BitVec.extractLsb'_or]
  case armMul c s rd rs rm => exact decodeArm_encodeMultiply_short c false s rd 0#4 rs rm
  case armMla c s rd rn rs rm => exact decodeArm_encodeMultiply_short c true s rd rn rs rm
  case armUmull c s hi lo rs rm => exact decodeArm_encodeMultiply_long c false false s hi lo rs rm
  case armUmlal c s hi lo rs rm => exact decodeArm_encodeMultiply_long c false true s hi lo rs rm
  case armSmull c s hi lo rs rm => exact decodeArm_encodeMultiply_long c true false s hi lo rs rm
  case armSmlal c s hi lo rs rm => exact decodeArm_encodeMultiply_long c true true s hi lo rs rm
  case armStrh c ix rn rd off => exact decodeArm_encodeHalfSigned c false false true ix rn rd off (.inr rfl)
  case armLdrh c ix rn rd off => exact decodeArm_encodeHalfSigned c true false true ix rn rd off (.inr rfl)
  case armLdrsb c ix rn rd off => exact decodeArm_encodeHalfSigned c true true false ix rn rd off (.inl rfl)
  case armLdrsh c ix rn rd off => exact decodeArm_encodeHalfSigned c true true true ix rn rd off (.inl rfl)
  case armLdrdPosition c ix rn rd off => exact decodeArm_encodeHalfSigned c false true false ix rn rd off (.inl rfl)
  case armStrdPosition c ix rn rd off => exact decodeArm_encodeHalfSigned c false true true ix rn rd off (.inl rfl)
  case armReservedSh00 c =>
    rw [encodeArm, decodeArm_reservedSh00] <;> simp [BitVec.and_or_distrib_right, BitVec.extractLsb'_or]
  case armMrs c p rd | armMsrReg c p fm rm =>
    rw [encodeArm, decodeArm_psrTransfer (by simp [BitVec.and_or_distrib_right]) (.inr (by simp))]
    simp [decodePsrTransfer, BitVec.extractLsb'_or]
  case armReservedPsr c | armMsrImm c p fm rot imm8 =>
    rw [encodeArm, decodeArm_psrTransfer (by simp [BitVec.and_or_distrib_right]) (.inl (by simp))]
    simp [decodePsrTransfer, BitVec.extractLsb'_or]
  case armAnd c s rn rd o | armEor c s rn rd o | armSub c s rn rd o | armRsb c s rn rd o | armAdd c s rn rd o
      | armAdc c s rn rd o | armSbc c s rn rd o | armRsc c s rn rd o | armOrr c s rn rd o | armMov c s rd o
      | armBic c s rn rd o | armMvn c s rd o | armTst c rn o | armTeq c rn o | armCmp c rn o | armCmn c rn o =>
    rw [encodeArm, decodeArm_encodeDataProcessing (htest := by simp)]
    simp [decodeDataProcessing, encodeDataProcessing_fields]
  case armNoClassCoprocTransfer c =>
    rw [encodeArm, decodeArm_coprocTransfer (by simp [BitVec.and_or_distrib_right])]
    simp [BitVec.extractLsb'_or]
  case armNoClassCoprocOperation c =>
    rw [encodeArm, decodeArm_coprocOperation (by simp [BitVec.and_or_distrib_right])]
    simp [BitVec.extractLsb'_or]
  all_goals cases h

end Sys2Proof.Machine
end

section
/-! Thumb words: each shape of word by its row and its fields, and every Thumb encoding read back (spec `30_encoding.md`
R240-R258). -/

namespace Sys2Proof.Machine

/-! ## Rows and fields -/

theorem getElem_of_row {n : Nat} {w m v : BitVec n} (h : w &&& m = v) {k : Nat} (hk : k < n) (hm : m[k] = true) :
    w[k] = v[k] := by
  rw [← BitVec.getLsbD_eq_getElem, ← BitVec.getLsbD_eq_getElem]
  exact getLsbD_of_row h hm

/-- A field that the mask of a row covers. -/
theorem extractLsb'_of_row {n : Nat} {w m v : BitVec n} (h : w &&& m = v) {k len : Nat}
    (hm : m.extractLsb' k len = BitVec.allOnes len) : w.extractLsb' k len = v.extractLsb' k len := by
  rw [← h, BitVec.extractLsb'_and, hm, BitVec.and_allOnes]

/-- A field of the row's value that the mask leaves out is 0. -/
theorem extractLsb'_of_masked {n : Nat} {m v : BitVec n} (h : v &&& m = v) {k len : Nat} (hm : m.extractLsb' k len = 0#len) :
    v.extractLsb' k len = 0#len := by
  rw [← h, BitVec.extractLsb'_and, hm, BitVec.and_zero]

/-! ## The shapes of a Thumb word

To know what a word of a shape decodes to it is enough to know its row and its fields. -/

section

variable {i : Instr} {top : BitVec 16} {r6 r3 r0 : LoReg} {imm5 : BitVec 5} {imm8 : BitVec 8} {rd rs : Reg}

theorem decodeThumb_thumb2 (h : top &&& 0xFFC0#16 = top)
    (hd : ∀ w, w &&& 0xFFC0#16 = top → w.extractLsb' 3 3 = r3 → w.extractLsb' 0 3 = r0 → decodeThumb w = i) :
    decodeThumb (encodeThumb2 top r3 r0) = i := by
  have h3 : top.extractLsb' 3 3 = 0#3 := extractLsb'_of_masked h (by decide)
  have h0 : top.extractLsb' 0 3 = 0#3 := extractLsb'_of_masked h (by decide)
  apply hd <;> simp [encodeThumb2, BitVec.and_or_distrib_right, BitVec.extractLsb'_or, h, h3, h0]

theorem decodeThumb_thumb3 (h : top &&& 0xFE00#16 = top)
    (hd : ∀ w, w &&& 0xFE00#16 = top → w.extractLsb' 6 3 = r6 → w.extractLsb' 3 3 = r3 → w.extractLsb' 0 3 = r0 →
      decodeThumb w = i) : decodeThumb (encodeThumb3 top r6 r3 r0) = i := by
  have h6 : top.extractLsb' 6 3 = 0#3 := extractLsb'_of_masked h (by decide)
  have h3 : top.extractLsb' 3 3 = 0#3 := extractLsb'_of_masked h (by decide)
  have h0 : top.extractLsb' 0 3 = 0#3 := extractLsb'_of_masked h (by decide)
  apply hd <;> simp [encodeThumb3, BitVec.and_or_distrib_right, BitVec.extractLsb'_or, h, h6, h3, h0]

theorem decodeThumb_thumbImm5 (h : top &&& 0xF800#16 = top)
    (hd : ∀ w, w &&& 0xF800#16 = top → w.extractLsb' 6 5 = imm5 → w.extractLsb' 3 3 = r3 → w.extractLsb' 0 3 = r0 →
      decodeThumb w = i) : decodeThumb (encodeThumbImm5 top imm5 r3 r0) = i := by
  have h6 : top.extractLsb' 6 5 = 0#5 := extractLsb'_of_masked h (by decide)
  have h3 : top.extractLsb' 3 3 = 0#3 := extractLsb'_of_masked h (by decide)
  have h0 : top.extractLsb' 0 3 = 0#3 := extractLsb'_of_masked h (by decide)
  apply hd <;> simp [encodeThumbImm5, BitVec.and_or_distrib_right, BitVec.extractLsb'_or, h, h6, h3, h0]

theorem decodeThumb_thumbImm8 (h : top &&& 0xF800#16 = top)
    (hd : ∀ w, w &&& 0xF800#16 = top → w.extractLsb' 8 3 = r0 → w.extractLsb' 0 8 = imm8 → decodeThumb w = i) :
    decodeThumb (encodeThumbImm8 top r0 imm8) = i := by
  have h8 : top.extractLsb' 8 3 = 0#3 := extractLsb'_of_masked h (by decide)
  have h0 : top.extractLsb' 0 8 = 0#8 := extractLsb'_of_masked h (by decide)
  apply hd <;> simp [encodeThumbImm8, BitVec.and_or_distrib_right, BitVec.extractLsb'_or, h, h8, h0]

theorem decodeThumb_thumbHi (h : top &&& 0xFF00#16 = top)
    (hd : ∀ w, w &&& 0xFF00#16 = top → w.extractLsb' 7 1 ++ w.extractLsb' 0 3 = rd → w.extractLsb' 3 4 = rs →
      decodeThumb w = i) : decodeThumb (encodeThumbHi top rd rs) = i := by
  have h7 : top.extractLsb' 7 1 = 0#1 := extractLsb'_of_masked h (by decide)
  have h3 : top.extractLsb' 3 4 = 0#4 := extractLsb'_of_masked h (by decide)
  have h0 : top.extractLsb' 0 3 = 0#3 := extractLsb'_of_masked h (by decide)
  have hrd : rd.extractLsb' 3 1 ++ rd.extractLsb' 0 3 = rd := append_extractLsb'_low (n := 1) (lo := 3) rd
  apply hd <;> simp [encodeThumbHi, BitVec.and_or_distrib_right, BitVec.extractLsb'_or, h, h7, h3, h0, hrd]

/-- PUSH and POP (R255): the bit R at 8 and the list. -/
theorem decodeThumb_list {b : Bool} (h : top &&& 0xFE00#16 = top)
    (hd : ∀ w, w &&& 0xFE00#16 = top → w[8] = b → w.extractLsb' 0 8 = imm8 → decodeThumb w = i) :
    decodeThumb (top ||| put16 8 (BitVec.ofBool b) ||| put16 0 imm8) = i := by
  have h8 : top.extractLsb' 8 1 = 0#1 := extractLsb'_of_masked h (by decide)
  have h0 : top.extractLsb' 0 8 = 0#8 := extractLsb'_of_masked h (by decide)
  have hbit (w : BitVec 16) (hw : w.extractLsb' 8 1 = BitVec.ofBool b) : w[8] = b := by
    have h := congrArg (·.getLsbD 0) hw
    simpa using h
  refine hd _ ?_ (hbit _ ?_) ?_ <;> simp [BitVec.and_or_distrib_right, BitVec.extractLsb'_or, h, h8, h0]

/-- A word whose only field is its low bits. -/
theorem decodeThumb_low {n : Nat} {v : BitVec n} {m : BitVec 16} (h : top &&& m = top) (hn : n ≤ 16)
    (hm : m.extractLsb' 0 n = 0#n) (hd : ∀ w, w &&& m = top → w.extractLsb' 0 n = v → decodeThumb w = i) :
    decodeThumb (top ||| put16 0 v) = i := by
  have h0 : top.extractLsb' 0 n = 0#n := extractLsb'_of_masked h hm
  apply hd <;> simp [BitVec.and_or_distrib_right, BitVec.extractLsb'_or, h, h0, hm, hn]

end

/-! ## Encodings read back -/

/-- The condition 0xF in a conditional branch is SWI (R240, R257). -/
theorem decodeThumb_bcond {w : BitVec 16} (h : w &&& 0xF000#16 = 0xD000#16) (hc : w.extractLsb' 8 4 ≠ 0xF#4) :
    decodeThumb w = .thumbBcond (Cond.ofBits (w.extractLsb' 8 4)) (w.extractLsb' 0 8) := by
  have hswi : w &&& 0xFF00#16 ≠ 0xDF00#16 := fun hrow => hc (extractLsb'_of_row hrow rfl)
  simp (disch := decide) [decodeThumb, matchesRow_eq_false h, matchesRow_eq_true h, matchesRow_eq_false_of_wider hswi]

theorem decodeThumb_encodeBcond {c : Cond} (hc : c ≠ .nv) (off : BitVec 8) :
    decodeThumb (0xD000#16 ||| put16 8 c.toBits ||| put16 0 off) = .thumbBcond c off := by
  have hbits := Cond.toBits_ne_of_ne_nv hc
  rw [decodeThumb_bcond] <;> simp [BitVec.and_or_distrib_right, BitVec.extractLsb'_or, hbits]

theorem decodeThumb_encodeBx (rs : Reg) : decodeThumb (0x4700#16 ||| put16 3 rs) = .thumbBx rs := by
  have hrow : (0x4700#16 ||| put16 3 rs) &&& 0xFF87#16 = 0x4700#16 := by simp [BitVec.and_or_distrib_right]
  have hrs : (0x4700#16 ||| put16 3 rs).extractLsb' 3 4 = rs := by simp [BitVec.extractLsb'_or]
  simp (disch := decide) [decodeThumb, matchesRow_eq_false hrow, matchesRow_eq_true hrow, getElem_of_row hrow, hrs]

/-- Every Thumb instruction that has a word is what its word decodes to. -/
theorem decodeThumb_encodeThumb {i : Instr} (ht : i.isThumb = true) (hw : i.wellFormed = true) :
    decodeThumb (encodeThumb i) = i := by
  cases i
  case thumbSwi =>
    refine decodeThumb_low (m := 0xFF00#16) rfl (by decide) rfl fun w hrow h0 => ?_
    simp (disch := decide) [decodeThumb, matchesRow_eq_true hrow, h0]
  case thumbB | thumbBlFirst | thumbBlSecond =>
    refine decodeThumb_low (m := 0xF800#16) rfl (by decide) rfl fun w hrow h0 => ?_
    simp (disch := decide) [decodeThumb, matchesRow_eq_false hrow, matchesRow_eq_true hrow, getElem_of_row hrow, h0]
  case thumbAddSp | thumbSubSp =>
    refine decodeThumb_low (m := 0xFF80#16) rfl (by decide) rfl fun w hrow h0 => ?_
    simp (disch := decide) [decodeThumb, matchesRow_eq_false hrow, matchesRow_eq_true hrow, getElem_of_row hrow, h0]
  case thumbBcond c off =>
    have hc : c ≠ .nv := of_decide_eq_true hw
    exact decodeThumb_encodeBcond hc off
  case thumbPush | thumbPop =>
    refine decodeThumb_list rfl fun w hrow h8 h0 => ?_
    simp (disch := decide) [decodeThumb, matchesRow_eq_false hrow, matchesRow_eq_true hrow, getElem_of_row hrow, h8, h0]
  case thumbStrReg | thumbStrbReg | thumbLdrReg | thumbLdrbReg | thumbStrhReg | thumbLdsbReg | thumbLdrhReg | thumbLdshReg
      | thumbAddReg | thumbSubReg | thumbAddImm3 | thumbSubImm3 =>
    refine decodeThumb_thumb3 rfl fun w hrow h6 h3 h0 => ?_
    simp (disch := decide) [decodeThumb, matchesRow_eq_false hrow, matchesRow_eq_true hrow, getElem_of_row hrow, h6, h3, h0]
  case thumbStrhImm | thumbLdrhImm | thumbStrImm | thumbLdrImm | thumbStrbImm | thumbLdrbImm | thumbLslImm | thumbLsrImm
      | thumbAsrImm =>
    refine decodeThumb_thumbImm5 rfl fun w hrow h6 h3 h0 => ?_
    simp (disch := decide) [decodeThumb, matchesRow_eq_false hrow, matchesRow_eq_true hrow, getElem_of_row hrow, h6, h3, h0]
  case thumbStmia | thumbLdmia | thumbStrSp | thumbLdrSp | thumbAddRdPc | thumbAddRdSp | thumbLdrPc | thumbMovImm
      | thumbCmpImm | thumbAddImm8 | thumbSubImm8 =>
    refine decodeThumb_thumbImm8 rfl fun w hrow h8 h0 => ?_
    simp (disch := decide) [decodeThumb, matchesRow_eq_false hrow, matchesRow_eq_true hrow, getElem_of_row hrow, h8, h0]
  case thumbAddHi | thumbCmpHi | thumbMovHi =>
    refine decodeThumb_thumbHi rfl fun w hrow hrd hrs => ?_
    simp (disch := decide) [decodeThumb, matchesRow_eq_false hrow, matchesRow_eq_true hrow, getElem_of_row hrow, hrd, hrs]
  case thumbAnd | thumbEor | thumbLslReg | thumbLsrReg | thumbAsrReg | thumbAdc | thumbSbc | thumbRor | thumbTst | thumbNeg
      | thumbCmp | thumbCmn | thumbOrr | thumbMul | thumbBic | thumbMvn =>
    refine decodeThumb_thumb2 rfl fun w hrow h3 h0 => ?_
    have hop := extractLsb'_of_row hrow (k := 6) (len := 4) rfl
    simp (disch := decide) [decodeThumb, decodeThumbAlu, matchesRow_eq_false hrow, matchesRow_eq_true hrow, hop, h3, h0]
  case thumbBx rs => exact decodeThumb_encodeBx rs
  case thumbNoClassE8 | thumbNoClassB0 => decide
  all_goals cases ht

/-! ## Bytes -/

/-- The bytes of a word decode to what the word decodes to, whatever follows them (R70, R220). -/
theorem decode_encode_append (i : Instr) (rest : List Byte) :
    decode i.isThumb (encode i ++ rest) =
      .ok (if i.isThumb then decodeThumb (encodeThumb i) else decodeArm (encodeArm i), rest) := by
  have hhalf (h : Half) : lane h 1 ++ lane h 0 = h := append_extractLsb'_low (n := 8) (lo := 8) h
  cases ht : i.isThumb
  · simp only [encode, decode, ht, Bool.false_eq_true, if_false, List.cons_append, List.nil_append, lanes_word]
  · simp only [encode, decode, ht, if_true, List.cons_append, List.nil_append, hhalf]

/-- Settles O2: the bytes give the word back, and each class of words is read back by its rows and fields. -/
theorem decodeEncodeRoundTrip : Obligations.DecodeEncodeRoundTrip := by
  intro i rest hw
  rw [decode_encode_append]
  cases ht : i.isThumb
  case false => rw [if_neg Bool.false_ne_true, decodeArm_encodeArm ht]
  case true => rw [if_pos rfl, decodeThumb_encodeThumb ht hw]

/-- Settles O1: the decoder run on each word. -/
theorem decodesSpecWords : Obligations.DecodesSpecWords := by
  unfold Obligations.DecodesSpecWords
  decide

end Sys2Proof.Machine
end

section
/-! Conditions: the table, what a failed condition does, and what the conditions say after a comparison (spec `30_encoding.md`
R221, `40_arm_data_processing.md` R262, R274). -/

namespace Sys2Proof.Machine

variable {s t : State} {c : Cond}

/-! ## The table (R221) -/

theorem condPass_eq (s : State) : s.condPass .eq = s.flagZ := rfl

theorem condPass_ne (s : State) : s.condPass .ne = !s.flagZ := rfl

theorem condPass_cs (s : State) : s.condPass .cs = s.flagC := rfl

theorem condPass_cc (s : State) : s.condPass .cc = !s.flagC := rfl

theorem condPass_hi (s : State) : s.condPass .hi = true ↔ s.flagC = true ∧ s.flagZ = false := by
  simp [State.condPass, condHolds, State.flagC, State.flagZ]

theorem condPass_ls (s : State) : s.condPass .ls = true ↔ s.flagC = false ∨ s.flagZ = true := by
  simp [State.condPass, condHolds, State.flagC, State.flagZ]

theorem condPass_ge (s : State) : s.condPass .ge = true ↔ s.flagN = s.flagV := by
  simp [State.condPass, condHolds, State.flagN, State.flagV]

theorem condPass_lt (s : State) : s.condPass .lt = true ↔ s.flagN ≠ s.flagV := by
  simp [State.condPass, condHolds, State.flagN, State.flagV]

theorem condPass_gt (s : State) : s.condPass .gt = true ↔ s.flagZ = false ∧ s.flagN = s.flagV := by
  simp [State.condPass, condHolds, State.flagZ, State.flagN, State.flagV]

theorem condPass_le (s : State) : s.condPass .le = true ↔ s.flagZ = true ∨ s.flagN ≠ s.flagV := by
  simp [State.condPass, condHolds, State.flagZ, State.flagN, State.flagV]

/-! ## A failed condition -/

section

variable (hc : s.condPass c = false)
include hc

theorem dataProc_fail (op : AluOp) (sb : Bool) (rn rd : Reg) (o : Operand2) :
    dataProc op c sb rn rd o s = .next { s with cycles := s.cycles + 1 } :=
  conditional_fail hc _

theorem dataTest_fail (op : AluOp) (rn : Reg) (o : Operand2) :
    dataTest op c rn o s = .next { s with cycles := s.cycles + 1 } :=
  conditional_fail hc _

theorem singleLoad_fail (k : LoadKind) (ix : Indexing) (rn rd : Reg) (off : Word) :
    singleLoad k c ix rn rd off s = .next { s with cycles := s.cycles + 1 } :=
  conditional_fail hc _

theorem singleStore_fail (w : Width) (ix : Indexing) (rn rd : Reg) (off : Word) :
    singleStore w c ix rn rd off s = .next { s with cycles := s.cycles + 1 } :=
  conditional_fail hc _

/-- Every meaning under a condition tests it first. -/
theorem exec_of_condition_fails {i : Instr} (hi : instrCond i = some c ∨ ∃ off, i = .thumbBcond c off) :
    exec i s = .next { s with cycles := s.cycles + 1 } := by
  rcases hi with h | ⟨off, rfl⟩
  case inr =>
    rw [exec]
    exact conditional_fail hc _
  cases i
  case armLdr | armLdrb | armLdrh | armLdrsb | armLdrsh =>
    cases h
    exact singleLoad_fail hc _ _ _ _ _
  case armStr | armStrb | armStrh =>
    cases h
    exact singleStore_fail hc _ _ _ _ _
  case armAnd | armEor | armSub | armRsb | armAdd | armAdc | armSbc | armRsc | armOrr | armMov | armBic | armMvn =>
    cases h
    exact dataProc_fail hc _ _ _ _ _
  case armTst | armTeq | armCmp | armCmn =>
    cases h
    exact dataTest_fail hc _ _ _
  case armBx | armLdm | armStm | armB | armBl | armSwi | armUnd | armSwp | armSwpb | armMul | armMla | armUmull | armUmlal
      | armSmull | armSmlal | armLdrdPosition | armStrdPosition | armReservedSh00 | armMrs | armReservedPsr | armMsrReg
      | armMsrImm | armNoClassCoprocTransfer | armNoClassCoprocOperation =>
    cases h
    rw [exec]
    exact conditional_fail hc _
  all_goals cases h

end

/-- Settles O7: the table by its rows, and a condition that fails by the test that every conditional meaning begins with. -/
theorem conditionalExecution : Obligations.ConditionalExecution :=
  ⟨fun s => ⟨⟨condPass_eq s, condPass_ne s⟩, ⟨condPass_cs s, condPass_cc s⟩, ⟨rfl, rfl⟩, ⟨rfl, rfl⟩, condPass_hi s,
    condPass_ls s, condPass_ge s, condPass_lt s, condPass_gt s, condPass_le s, rfl, rfl⟩,
    fun _ _ _ hi hc => exec_of_condition_fails hc hi⟩

/-! ## A comparison (R274) -/

theorem aluSub_eq (a b : Word) (i : AluIn) : aluSub a b i =
    ⟨a - b, decide (b.toNat ≤ a.toNat), decide ((a - b).toInt ≠ a.toInt - b.toInt)⟩ := by
  rw [aluSub, addC_diff]
  simp

/-- Overflow inverts the sign of a difference, so N = V says that the exact difference is not negative (R221, R262). -/
theorem msb_sub_eq_overflow_iff (a b : Word) :
    (a - b).msb = decide ((a - b).toInt ≠ a.toInt - b.toInt) ↔ b.toInt ≤ a.toInt := by
  have hd : (a - b).toInt = (a.toInt - b.toInt).bmod (2 ^ 32) := BitVec.toInt_sub
  have ha := BitVec.toInt_lt (x := a)
  have ha' := BitVec.le_toInt (x := a)
  have hb := BitVec.toInt_lt (x := b)
  have hb' := BitVec.le_toInt (x := b)
  rw [BitVec.msb_eq_toInt, decide_eq_decide, hd, Int.bmod_def]
  split <;> omega

/-- The flags after CMP as comparisons of its operands: Z, C and N = V. -/
theorem flags_of_difference {a b : Word} (h : t.nzcv =
    resultFlags (a - b) (decide (b.toNat ≤ a.toNat)) (decide ((a - b).toInt ≠ a.toInt - b.toInt))) :
    (t.flagZ = true ↔ a = b) ∧ (t.flagC = true ↔ b.toNat ≤ a.toNat) ∧ (t.flagN = t.flagV ↔ b.toInt ≤ a.toInt) := by
  simp only [State.nzcv, resultFlags, Prod.mk.injEq] at h
  obtain ⟨hn, hz, hc, hv⟩ := h
  have hzero : a - b = 0#32 ↔ a = b := sub_eq_zero
  exact ⟨by rw [hz, decide_eq_true_iff, hzero], by rw [hc, decide_eq_true_iff], by rw [hn, hv, msb_sub_eq_overflow_iff]⟩

/-- Settles O8: CMP leaves the flags of the difference, and each row of the table reads them as a comparison. -/
theorem compareThenConditions : Obligations.CompareThenConditions := by
  intro s c rn o hc a b
  obtain ⟨t, ht, heff, -⟩ := dataTest_spec aluSub (rn := rn) (o := o) hc
  have hflags : t.nzcv =
      resultFlags (a - b) (decide (b.toNat ≤ a.toNat)) (decide ((a - b).toInt ≠ a.toInt - b.toInt)) := by
    rw [heff.flags, State.aluResult, aluSub_eq]
  obtain ⟨hz, hcarry, hsign⟩ := flags_of_difference hflags
  have hnat : a = b ↔ a.toNat = b.toNat := BitVec.toNat_inj.symm
  have hint : a = b ↔ a.toInt = b.toInt := BitVec.toInt_inj.symm
  refine ⟨t, ht, hz, ?_, hcarry, ?_, ?_, ?_, (condPass_ge t).trans hsign, ?_, ?_, ?_⟩
  · rw [condPass_ne, Bool.not_eq_true', ← Bool.not_eq_true, hz]
  · rw [condPass_cc, Bool.not_eq_true', ← Bool.not_eq_true, hcarry, not_le]
  · rw [condPass_hi, hcarry, ← Bool.not_eq_true, hz, hnat]; omega
  · rw [condPass_ls, ← Bool.not_eq_true, hcarry, hz, hnat]; omega
  · rw [condPass_lt, ne_eq, hsign, not_le]
  · rw [condPass_gt, hsign, ← Bool.not_eq_true, hz, hint]; omega
  · rw [condPass_le, ne_eq, hsign, hz, hint]; omega

end Sys2Proof.Machine
end

section
/-! The barrel shifter and the operand forms (spec `40_arm_data_processing.md` R260, R261, R263; `42_arm_load_store.md`
R320-R322, R330). -/

namespace Sys2Proof.Machine

/-! ## Shifts by an amount, without its special cases

Shifting by the full amount gives 0, or copies of the sign, past 32 as well, so `Shift` needs no case for them. -/

theorem shiftBy_lsl (v : Word) (n : Nat) : shiftBy .lsl v n = (v <<< n, decide (n ≤ 32) && v.getLsbD (32 - n)) := by
  simp only [shiftBy]
  by_cases hlt : n < 32
  · simp [hlt, hlt.le]
  have hzero : v <<< n = 0#32 := BitVec.shiftLeft_eq_zero (by omega)
  by_cases heq : n = 32
  · subst heq; simp
  · simp [hlt, heq, hzero, show ¬ n ≤ 32 by omega]

theorem shiftBy_lsr (v : Word) (n : Nat) : shiftBy .lsr v n = (v >>> n, decide (n ≤ 32) && v.getLsbD (n - 1)) := by
  simp only [shiftBy]
  by_cases hlt : n < 32
  · simp [hlt, hlt.le]
  have hzero : v >>> n = 0#32 := BitVec.ushiftRight_eq_zero (by omega)
  rw [if_neg hlt, hzero]
  by_cases heq : n = 32
  · subst heq; rfl
  · simp [heq, show ¬ n ≤ 32 by omega]

theorem sshiftRight_of_le (v : Word) {n : Nat} (h : 32 ≤ n) :
    v.sshiftRight n = if v.getLsbD 31 then 0xFFFFFFFF#32 else 0#32 := by
  have hones : 0xFFFFFFFF#32 = BitVec.allOnes 32 := rfl
  apply BitVec.eq_of_getLsbD_eq
  intro j hj
  have hsign : (v.sshiftRight n).getLsbD j = v.getLsbD 31 := by
    rw [BitVec.getLsbD_sshiftRight, BitVec.msb_eq_getLsbD_last, if_neg (by omega)]
    simp [hj]
  rw [hsign]
  split
  next h31 => rw [h31, hones, BitVec.getLsbD_allOnes, decide_eq_true hj]
  next h31 => rw [Bool.eq_false_iff.mpr h31, BitVec.getLsbD_zero]

theorem shiftBy_asr (v : Word) (n : Nat) : shiftBy .asr v n = (v.sshiftRight n, v.getLsbD (min n 32 - 1)) := by
  simp only [shiftBy]
  by_cases hlt : n < 32
  · rw [if_pos hlt, min_eq_left hlt.le]
  · rw [if_neg hlt, min_eq_right (by omega), sshiftRight_of_le v (by omega)]

theorem getLsbD_rotateRight_word (v : Word) (n : Nat) {j : Nat} (hj : j < 32) :
    (v.rotateRight n).getLsbD j = v.getLsbD ((j + n) % 32) := by
  rw [BitVec.getLsbD_rotateRight]
  by_cases h : j < 32 - n % 32
  · rw [decide_eq_true h, cond_true, show (j + n) % 32 = n % 32 + j by omega]
  · rw [decide_eq_false h, decide_eq_true hj, cond_false, Bool.true_and, show (j + n) % 32 = j - (32 - n % 32) by omega]

/-- A whole turn brings bit 31 into the carry, as the bit before the last one turned is in every other case. -/
theorem shiftBy_ror (v : Word) {n : Nat} (h : 1 ≤ n) : shiftBy .ror v n = (v.rotateRight n, v.getLsbD ((n - 1) % 32)) := by
  simp only [shiftBy, ror, BitVec.rotateRight_mod_eq_rotateRight]
  by_cases hturn : n % 32 = 0
  · have hv : v.rotateRight n = v := BitVec.eq_of_getLsbD_eq fun j hj => by
      rw [getLsbD_rotateRight_word v n hj, show (j + n) % 32 = j by omega]
    rw [if_pos hturn, hv, show (n - 1) % 32 = 31 by omega]
  · rw [if_neg hturn, show (n - 1) % 32 = n % 32 - 1 by omega]

/-! ## The amount of an immediate shift -/

/-- LSR #0 and ASR #0 stand for 32 (R260). -/
theorem shiftImm_of_right {ty : ShiftType} (hty : ty = .lsr ∨ ty = .asr) (v : Word) (n : BitVec 5) (c : Bool) :
    shiftImm ty v n c = shiftBy ty v (if n = 0#5 then 32 else n.toNat) := by
  unfold shiftImm
  obtain rfl | rfl := hty <;> split <;> rfl

theorem shiftImm_of_ne {n : BitVec 5} (h : n ≠ 0#5) (ty : ShiftType) (v : Word) (c : Bool) :
    shiftImm ty v n c = shiftBy ty v n.toNat :=
  if_neg h

theorem shiftReg_of_ne {n : Byte} (h : n ≠ 0#8) (ty : ShiftType) (v : Word) (c : Bool) :
    shiftReg ty v n c = shiftBy ty v n.toNat :=
  if_neg h

/-! ## The shifts in exact arithmetic -/

theorem shiftBy_lsl_toNat (v : Word) (n : Nat) : (shiftBy .lsl v n).1.toNat = v.toNat * 2 ^ n % 2 ^ 32 := by
  rw [shiftBy_lsl, BitVec.toNat_shiftLeft, Nat.shiftLeft_eq]

theorem shiftBy_lsr_toNat (v : Word) (n : Nat) : (shiftBy .lsr v n).1.toNat = v.toNat / 2 ^ n := by
  rw [shiftBy_lsr, BitVec.toNat_ushiftRight, Nat.shiftRight_eq_div_pow]

theorem shiftBy_asr_toInt (v : Word) (n : Nat) : (shiftBy .asr v n).1.toInt = v.toInt / 2 ^ n := by
  rw [shiftBy_asr, BitVec.toInt_sshiftRight, Int.shiftRight_eq_div_pow, Nat.cast_pow, Nat.cast_ofNat]

theorem shiftBy_ror_getLsbD (v : Word) {n j : Nat} (h : 1 ≤ n) (hj : j < 32) :
    (shiftBy .ror v n).1.getLsbD j = v.getLsbD ((j + n) % 32) := by
  rw [shiftBy_ror v h, getLsbD_rotateRight_word v n hj]

/-- ROR #0 turns right by one through the carry (R260). -/
theorem shiftImm_rrx_toNat (v : Word) (c : Bool) : (shiftImm .ror v 0#5 c).1.toNat = c.toNat * 2 ^ 31 + v.toNat / 2 := by
  have hv : v.toNat / 2 < 2 ^ 31 := by have := v.isLt; omega
  have htop : ((BitVec.ofBool c).setWidth 32 <<< 31 : Word).toNat = 2 ^ 31 * c.toNat := by
    cases c <;> rfl
  have hlow : (v >>> 1).toNat = v.toNat / 2 := by rw [BitVec.toNat_ushiftRight, Nat.shiftRight_eq_div_pow, pow_one]
  show ((BitVec.ofBool c).setWidth 32 <<< 31 ||| v >>> 1 : Word).toNat = _
  rw [BitVec.toNat_or, htop, hlow, ← Nat.two_pow_add_eq_or_of_lt hv, mul_comm]

/-- Settles O9: each type of shift by any amount of at least 1, and the amounts that stand for another. -/
theorem shifterArithmetic : Obligations.ShifterArithmetic := by
  refine ⟨fun v n c => ?_, fun v n c ty hn => if_pos hn, fun v n c hn => ?_⟩
  · intro k
    have hk : n ≠ 0#5 → k = n.toNat := fun hn => if_neg hn
    have hk32 : k ≤ 32 := by unfold k; split <;> omega
    have hlsr : shiftImm .lsr v n c = shiftBy .lsr v k := shiftImm_of_right (.inl rfl) v n c
    have hasr : shiftImm .asr v n c = shiftBy .asr v k := shiftImm_of_right (.inr rfl) v n c
    refine ⟨fun hn => if_pos hn, fun hn => ?_, ?_, ?_, ?_, ?_, fun hn => ?_, fun hn => ?_⟩
    · rw [shiftImm_of_ne hn, ← hk hn]
      exact ⟨shiftBy_lsl_toNat v k, by simp [shiftBy_lsl, hk32, BitVec.testBit_toNat]⟩
    · rw [hlsr, shiftBy_lsr_toNat]
    · simp [hlsr, shiftBy_lsr, hk32, BitVec.testBit_toNat]
    · rw [hasr, shiftBy_asr_toInt]
    · rw [hasr, shiftBy_asr, min_eq_left hk32, BitVec.testBit_toNat]
    · subst hn
      exact ⟨shiftImm_rrx_toNat v c, (BitVec.testBit_toNat v).symm⟩
    · have hpos : 1 ≤ k := by rw [hk hn]; bv_omega
      rw [shiftImm_of_ne hn, ← hk hn, BitVec.testBit_toNat]
      exact ⟨fun j hj => shiftBy_ror_getLsbD v hpos hj, by rw [shiftBy_ror v hpos, Nat.mod_eq_of_lt (by omega)]⟩
  · intro k
    have hpos : 1 ≤ k := by unfold k; bv_omega
    simp only [shiftReg_of_ne hn, BitVec.testBit_toNat]
    exact ⟨shiftBy_lsl_toNat v k, by rw [shiftBy_lsl], shiftBy_lsr_toNat v k, by rw [shiftBy_lsr], shiftBy_asr_toInt v k,
      by rw [shiftBy_asr], fun j hj => shiftBy_ror_getLsbD v hpos hj, by rw [shiftBy_ror v hpos]⟩

/-! ## The operand forms -/

theorem x_pc (s : State) : s.x 15#4 = s.r15 := by rw [State.x, phys_15, Regs.get_r15, State.r15]

theorem xAhead_eq (s : State) (i : Reg) : s.xAhead i = if i = 15#4 then s.r15 + 4#32 else s.x i := by
  unfold State.xAhead
  split
  next h => rw [h, x_pc]
  next => rfl

theorem lane_zero (v : Word) : lane v 0 = v.setWidth 8 := by
  rw [lane, mul_zero, ← BitVec.setWidth_eq_extractLsb' (by omega)]

theorem operand2_imm (s : State) (rot : BitVec 4) (imm8 : BitVec 8) :
    s.operand2 (.imm rot imm8) = (ror (BitVec.ofNat 32 imm8.toNat) (2 * rot.toNat),
      if rot = 0#4 then s.flagC else (ror (BitVec.ofNat 32 imm8.toNat) (2 * rot.toNat)).msb) := by
  rw [BitVec.ofNat_toNat, BitVec.msb_eq_getLsbD_last]
  rfl

/-- Settles O10: each form by its case, r15 read ahead only beside a register-specified shift and by a store. -/
theorem operandForms : Obligations.OperandForms := by
  intro s ahead
  have hahead : s.xAhead = ahead := funext fun i => xAhead_eq s i
  refine ⟨operand2_imm s, fun rm ty n => rfl, fun rm ty rs => ?_, fun rn rot imm8 => rfl, fun rn rm ty n => rfl,
    fun rn rm ty rs => xAhead_eq s rn, fun imm12 => ?_, fun rm ty n => rfl, fun imm8 => ?_, fun rm => rfl, x_pc s,
    xAhead_eq s⟩
  · rw [State.operand2, hahead, lane_zero]
  · rw [State.offset12, BitVec.ofNat_toNat]
  · rw [State.offset8, BitVec.ofNat_toNat]

end Sys2Proof.Machine
end

section
/-! Data processing: the operations that write Rd and those that write flags alone (spec `40_arm_data_processing.md`
R262-R282). -/

namespace Sys2Proof.Machine

variable {s : State}

/-- Settles O11: every row is the skeleton of R263. -/
theorem dataProcessingResults : Obligations.DataProcessingResults := by
  intro s c sb rn rd o r hc hrd hr
  obtain ⟨op, rn', he, hv⟩ := dataProcessingRows_exec hr
  have hspec := dataProc_spec op (rn := rn') (o := o) hc hrd
  rwa [← he, hv] at hspec

/-- Every row of the tests is the skeleton of R263 without Rd, with some operation whose result is the row's. -/
theorem testRows_exec {c : Cond} {rn : Reg} {o : Operand2} {r : ResultRow}
    (h : r ∈ testRows c rn o (s.operand1 rn o) (s.operand2 o).1 (s.operand2 o).2 s.flagV) :
    ∃ op, exec r.instr s = dataTest op c rn o s ∧ s.aluResult op rn o = ⟨r.value, r.carry, r.overflow⟩ := by
  simp only [testRows, List.mem_cons, List.not_mem_nil, or_false] at h
  rcases h with rfl | rfl | rfl | rfl
  · exact ⟨aluAnd, rfl, rfl⟩
  · exact ⟨aluEor, rfl, rfl⟩
  · exact ⟨aluSub, rfl, addC_differenceRow _ _ _ _⟩
  · exact ⟨aluAdd, rfl, addC_sumRow _ _ _ _⟩

/-- Settles O12: every row is the skeleton of R263 without Rd. -/
theorem dataProcessingTests : Obligations.DataProcessingTests := by
  intro s c rn o r hc hr
  obtain ⟨op, he, hv⟩ := testRows_exec hr
  have hspec := dataTest_spec op (rn := rn) (o := o) hc
  rwa [← he, hv] at hspec

end Sys2Proof.Machine
end

section
/-! An exception's entry and the return that undoes it (spec `60_exceptions.md` R531-R536; `40_arm_data_processing.md` R276). -/

namespace Sys2Proof.Machine

variable {s : State}

/-! ## The handler's view of an entry -/

/-- Every exception enters a mode that has an SPSR (R532). -/
theorem enter_spsr_mode (s : State) (e : Exception) : (s.enter e).cpu.spsr.get (s.enter e).mode = some s.cpu.cpsr := by
  rw [State.enter_spsr, State.enter_mode]
  exact Spsrs.get_set_same _ (by cases e <;> rfl) _

/-- Entry writes r14 of its mode and r15, no other register. -/
theorem enter_get (s : State) (e : Exception) {p : PhysReg} (hp : p ≠ .r15) :
    (s.enter e).cpu.regs.get p = if p = bank14 e.mode then s.returnAddress e else s.cpu.regs.get p :=
  (Regs.get_set_other _ hp e.vector).trans (Regs.get_set _ _ _ _)

theorem phys_14 (m : Mode) : phys m 14#4 = bank14 m := by cases m <;> rfl

theorem enter_link (s : State) (e : Exception) : (s.enter e).x 14#4 = s.returnAddress e := by
  rw [State.x, enter_get s e (phys_ne_r15 _ (by decide)), State.enter_mode, phys_14, if_pos rfl]

/-! ## The return undoes the entry -/

theorem alignPc_prev (h : alignPc s.thumb s.r15 = s.r15) : alignPc s.thumb (s.r15 - s.isize) = s.r15 - s.isize := by
  rw [alignPc_eq_iff] at h ⊢
  unfold State.isize
  cases ht : s.thumb <;> simp_all [BitVec.toNat_sub] <;> omega

theorem alignPc_nextInstr (h : alignPc s.thumb s.r15 = s.r15) : alignPc s.thumb s.nextInstr = s.nextInstr := by
  unfold State.nextInstr
  split
  · exact alignPc_prev h
  · exact h

/-- What a return from the exception `e` leaves of the state `s` in which it was taken. -/
structure Returned (s : State) (e : Exception) (pc : Word) (u : State) : Prop where
  cpsr : u.cpu.cpsr = s.cpu.cpsr
  pc : u.r15 = pc
  latch : u.cpu.latchValid = false
  regs : SameRegsBut [.r15, bank14 e.mode] s u
  bus : SameBus s u

/-- A returning operation in the handler's first state: CPSR is back, and pc is the operation's result where that is aligned
for the old T. -/
theorem enter_then_return (hl : legalMode s.cpu.cpsr = true) (e : Exception) (k : Nat) (op : AluOp) {rn : Reg} {o : Operand2}
    {pc : Word} (hv : (((s.enter e).tally k).aluResult op rn o).value = pc) (hpc : alignPc s.thumb pc = pc) :
    Completes (dataProc op .al true rn 15#4 o ((s.enter e).tally k)) (Returned s e pc) := by
  have hspsr : ((s.enter e).tally k).cpu.spsr.get ((s.enter e).tally k).mode = some s.cpu.cpsr := enter_spsr_mode s e
  obtain ⟨u, hu, hstep⟩ := dataProc_return op (c := .al) (rn := rn) (o := o) rfl ((restoreLegal_some hspsr).trans hl)
  rw [hv, restoreCpsr_cpsr_some hspsr] at hstep
  have hthumb : u.thumb = s.thumb := by rw [State.thumb, hstep.cpsr, State.thumb]
  refine ⟨u, hu, hstep.cpsr, ?_, hstep.latch, ?_, SameBus.of_eq hstep.bus.bus⟩
  · rw [hstep.target, hthumb, hpc]
  · intro p hp
    obtain ⟨h15, h14⟩ : p ≠ .r15 ∧ p ≠ bank14 e.mode := by simpa using hp
    rw [hstep.regs p (by simpa using h15), State.tally_regs, enter_get s e h15, if_neg h14]

/-- `SUBS pc, lr, #4` computes the link less 4. -/
theorem aluResult_subs (s : State) : (s.aluResult aluSub 14#4 (.imm 0#4 4#8)).value = s.x 14#4 - 4#32 := by
  rw [State.aluResult, aluSub_eq]
  rfl

/-- `MOVS pc, lr` computes the link. -/
theorem aluResult_movs (s : State) : (s.aluResult aluMov 0#4 (.shiftImm 14#4 .lsl 0#5)).value = s.x 14#4 := rfl

theorem irq_fiq_returnAddress {e : Exception} (h : e = .irq ∨ e = .fiq) : s.returnAddress e = s.nextInstr + s.irqLrBias := by
  obtain rfl | rfl := h <;> rfl

/-- SWI in both states and UND enter their exception, with the next instruction's address as the link (R363, R365, R471). -/
theorem exec_synchronous {c : Cond} {i : Instr} {comment : BitVec 24} {value : BitVec 8}
    (h : s.thumb = false ∧ s.condPass c = true ∧ (i = .armSwi c comment ∨ i = .armUnd c) ∨
      s.thumb = true ∧ i = .thumbSwi value) :
    ∃ e, exec i s = .next ((s.enter e).tally 3) ∧ s.returnAddress e = s.r15 - s.isize := by
  obtain ⟨-, hc, rfl | rfl⟩ | ⟨-, rfl⟩ := h
  · exact ⟨.softwareInterrupt, by rw [exec]; exact conditional_pass hc _, rfl⟩
  · exact ⟨.undefined, by rw [exec]; exact conditional_pass hc _, rfl⟩
  · exact ⟨.softwareInterrupt, rfl, rfl⟩

/-- Settles O32: the entry saves CPSR and the link, the return puts both back. -/
theorem returnUndoesEntry : Obligations.ReturnUndoesEntry := by
  refine ⟨fun s e hl ha hbias he => ?_, fun s c i comment value hl ha hi => ?_⟩
  · have hv : (((s.enter e).tally 0).aluResult aluSub 14#4 (.imm 0#4 4#8)).value = s.nextInstr := by
      rw [aluResult_subs]
      change (s.enter e).x 14#4 - 4#32 = _
      rw [enter_link, irq_fiq_returnAddress he, hbias, BitVec.add_sub_cancel]
    obtain ⟨u, hu, hcpsr, hpc, hlatch, hregs, hbus⟩ := enter_then_return hl e 0 aluSub hv (alignPc_nextInstr ha)
    exact ⟨u, hu, hcpsr, hpc, hlatch, hregs, hbus⟩
  · obtain ⟨e, hexec, hret⟩ := exec_synchronous hi
    have hv : (((s.enter e).tally 3).aluResult aluMov 0#4 (.shiftImm 14#4 .lsl 0#5)).value = s.r15 - s.isize :=
      (aluResult_movs _).trans ((enter_link s e).trans hret)
    obtain ⟨u, hu, hcpsr, hpc, hlatch, hregs, hbus⟩ := enter_then_return hl e 3 aluMov hv (alignPc_prev ha)
    have hmode : ((s.enter e).tally 3).mode = e.mode := State.enter_mode s e
    exact ⟨_, hexec, u, hu, hcpsr, hpc, hlatch, by rwa [hmode], hbus⟩

end Sys2Proof.Machine
end

section
/-! The multiplies: exact products in 32 and 64 bits, and the multiplier term by signed value (spec
`41_arm_multiply_psr.md` R300-R306, R315). -/

namespace Sys2Proof.Machine

variable {s : State} {c : Cond}

/-! ## Short multiplies (R300, R301) -/

/-- A short result: Rd, with S its N and Z, nothing else. -/
theorem mulWrite_effect (s : State) (sb : Bool) (rd : Reg) (r : Word) (k : Nat) :
    RegisterEffect s [(rd, r)] (if sb then resultFlags r s.flagC s.flagV else s.nzcv) k ((s.mulWrite sb rd r).tally k) := by
  have hrd := (Effect.refl s).setX rd r
  cases sb
  · exact ⟨(hrd.tally k).zero_add, SameBus.of_eq (State.setX_bus s rd r)⟩
  · have hw : s.mulWrite true rd r = (s.setX rd r).setResultFlags r s.flagC s.flagV := by
      simp [State.mulWrite, State.setNZ]
    rw [hw]
    exact ⟨((hrd.setResultFlags r _ _).tally k).zero_add, SameBus.of_eq (State.setX_bus s rd r)⟩

/-- Settles O14: the product and the sum of words are those of the numbers mod 2^32. -/
theorem multiplyShort : Obligations.MultiplyShort := by
  intro s c sb rd rn rs rm hc m p q flags
  have hp : s.x rm * s.x rs = p := by simp [p, BitVec.ofNat_mul]
  have hq : s.x rm * s.x rs + s.x rn = q := by simp [q, BitVec.ofNat_add, BitVec.ofNat_mul]
  constructor
  · rw [exec, execArmMul, conditional_pass hc, hp]
    exact ⟨_, rfl, mulWrite_effect s sb rd p (1 + m)⟩
  · rw [exec, execArmMla, conditional_pass hc, hq]
    exact ⟨_, rfl, mulWrite_effect s sb rd q (2 + m)⟩

/-! ## Long multiplies (R302-R305) -/

theorem umul64_eq_ofInt (a b : Word) : umul64 a b = BitVec.ofInt 64 (a.toNat * b.toNat) := by
  rw [umul64, BitVec.ofInt_mul, BitVec.ofInt_natCast, BitVec.ofInt_natCast, BitVec.ofNat_toNat, BitVec.ofNat_toNat]

theorem smul64_eq_ofInt (a b : Word) : smul64 a b = BitVec.ofInt 64 (a.toInt * b.toInt) :=
  (BitVec.ofInt_mul a.toInt b.toInt).symm

theorem accumulator_eq_ofInt (s : State) (hi low : Reg) :
    s.accumulator hi low = BitVec.ofInt 64 ((s.x hi).toNat * 2 ^ 32 + (s.x low).toNat) := by
  have hsum : (s.x hi ++ s.x low).toNat = (s.x hi).toNat * 2 ^ 32 + (s.x low).toNat := by
    rw [BitVec.toNat_append, ← Nat.shiftLeft_add_eq_or_of_lt (s.x low).isLt, Nat.shiftLeft_eq]
  calc s.accumulator hi low
    _ = BitVec.ofNat 64 (s.x hi ++ s.x low).toNat := by rw [BitVec.ofNat_toNat, BitVec.setWidth_eq, State.accumulator]
    _ = BitVec.ofInt 64 ((s.x hi).toNat * 2 ^ 32 + (s.x low).toNat) := by
      rw [hsum, ← BitVec.ofInt_natCast]
      push_cast
      rfl

/-- A long result: RdLo, then RdHi, with S the N and Z of the 64 bits, nothing else. -/
theorem mulLongWrite_effect (s : State) (sb : Bool) (hi low : Reg) (p : BitVec 64) (k : Nat) :
    RegisterEffect s [(low, BitVec.ofNat 32 (p.toNat % 2 ^ 32)), (hi, BitVec.ofNat 32 (p.toNat / 2 ^ 32))]
      (if sb then (p.msb, decide (p = 0#64), s.flagC, s.flagV) else s.nzcv) k ((s.mulLongWrite sb hi low p).tally k) := by
  have hlow : BitVec.ofNat 32 (p.toNat % 2 ^ 32) = p.extractLsb' 0 32 := BitVec.eq_of_toNat_eq (by simp)
  have hhigh : BitVec.ofNat 32 (p.toNat / 2 ^ 32) = p.extractLsb' 32 32 := by
    rw [← Nat.shiftRight_eq_div_pow]
    rfl
  rw [hlow, hhigh]
  have hregs := ((Effect.refl s).setX low (p.extractLsb' 0 32)).setX hi (p.extractLsb' 32 32)
  have hbus : ((s.setX low (p.extractLsb' 0 32)).setX hi (p.extractLsb' 32 32)).bus = s.bus := by simp
  cases sb
  · exact ⟨(hregs.tally k).zero_add, SameBus.of_eq hbus⟩
  · have hw : s.mulLongWrite true hi low p = ((s.setX low (p.extractLsb' 0 32)).setX hi (p.extractLsb' 32 32)).setNZCV
        p.msb (decide (p = 0#64)) s.flagC s.flagV := by
      simp [State.mulLongWrite, BitVec.msb_eq_getLsbD_last, beq_eq_decide]
    rw [hw]
    exact ⟨((hregs.setNZCV _ _ _ _).tally k).zero_add, SameBus.of_eq hbus⟩

/-- Every long multiply writes the product of its row. -/
theorem longMultiplyRows_exec {sb : Bool} {hi low rs rm : Reg} {i : Instr} {p : BitVec 64} {k : Nat}
    (hc : s.condPass c = true) (h : (i, p, k) ∈ longMultiplyRows s c sb hi low rs rm) :
    exec i s = .next ((s.mulLongWrite sb hi low p).tally (k + multiplierCycles (s.x rs))) := by
  simp only [longMultiplyRows, List.mem_cons, Prod.mk.injEq, List.not_mem_nil, or_false] at h
  rcases h with ⟨rfl, rfl, rfl⟩ | ⟨rfl, rfl, rfl⟩ | ⟨rfl, rfl, rfl⟩ | ⟨rfl, rfl, rfl⟩
  · rw [exec, execArmUmull, conditional_pass hc, umul64_eq_ofInt]
  · rw [exec, execArmUmlal, conditional_pass hc, umul64_eq_ofInt, accumulator_eq_ofInt, ← BitVec.ofInt_add]
  · rw [exec, execArmSmull, conditional_pass hc, smul64_eq_ofInt]
  · rw [exec, execArmSmlal, conditional_pass hc, smul64_eq_ofInt, accumulator_eq_ofInt, ← BitVec.ofInt_add]

/-- Settles O15: every row writes its 64 bits as two words. -/
theorem multiplyLong : Obligations.MultiplyLong := by
  intro s c sb hi low rs rm i p k hc hrow
  exact ⟨_, longMultiplyRows_exec hc hrow, mulLongWrite_effect s sb hi low p _⟩

/-! ## The multiplier term (R306) -/

theorem ushiftRight_eq_zero_iff (v : Word) (k : Nat) : v >>> k = 0#32 ↔ v.toNat < 2 ^ k := by
  rw [← BitVec.toNat_inj, BitVec.toNat_ushiftRight, Nat.shiftRight_eq_div_pow]
  exact Nat.div_eq_zero_iff_lt (Nat.two_pow_pos k)

theorem ushiftRight_eq_ones_iff (v : Word) {k : Nat} (hk : k < 32) :
    v >>> k = 0xFFFFFFFF#32 >>> k ↔ 2 ^ 32 - 2 ^ k ≤ v.toNat := by
  have hpos : 0 < 2 ^ k := Nat.two_pow_pos k
  have hle : 2 ^ k ≤ 2 ^ 32 := Nat.pow_le_pow_right (by decide) (by omega)
  have hmul : (2 ^ (32 - k) - 1) * 2 ^ k = 2 ^ 32 - 2 ^ k := by
    rw [Nat.sub_mul, ← Nat.pow_add, Nat.one_mul, Nat.sub_add_cancel (by omega)]
  have hmax : (0xFFFFFFFF#32).toNat = 2 ^ 32 - 1 := rfl
  have htop : (0xFFFFFFFF#32).toNat / 2 ^ k = 2 ^ (32 - k) - 1 := by
    rw [Nat.div_eq_iff hpos, hmul, hmax]
    omega
  have hv := v.isLt
  rw [← BitVec.toNat_inj, BitVec.toNat_ushiftRight, BitVec.toNat_ushiftRight, Nat.shiftRight_eq_div_pow,
    Nat.shiftRight_eq_div_pow, htop, Nat.div_eq_iff hpos, hmul]
  omega

/-- The bits from `k` up are all 0 or all 1 for the values from -2^k up to 2^k. -/
theorem uniformFrom_iff (v : Word) {k : Nat} (hk : k < 32) :
    uniformFrom v k = true ↔ -2 ^ k ≤ v.toInt ∧ v.toInt < 2 ^ k := by
  have hle : 2 ^ k ≤ 2 ^ 31 := Nat.pow_le_pow_right (by decide) (by omega)
  have hcast : (2 : Int) ^ k = ((2 ^ k : Nat) : Int) := by push_cast; rfl
  have hv := v.isLt
  rw [uniformFrom, Bool.or_eq_true, beq_iff_eq, beq_iff_eq, ushiftRight_eq_zero_iff, ushiftRight_eq_ones_iff v hk, hcast,
    BitVec.toInt_eq_toNat_cond]
  split <;> omega

/-- Settles O16: each of the three tests of the definition is a signed range. -/
theorem multiplierTerm : Obligations.MultiplierTerm := by
  intro v
  simp only [multiplierCycles, uniformFrom_iff v (show 8 < 32 by decide), uniformFrom_iff v (show 16 < 32 by decide),
    uniformFrom_iff v (show 24 < 32 by decide)]

end Sys2Proof.Machine
end

section
/-! The PSR transfers: MRS, MSR of the selected bytes, and what is fatal (spec `41_arm_multiply_psr.md` R308-R314; `10_state.md`
R26, R27). -/

namespace Sys2Proof.Machine

variable {s : State} {c : Cond}

/-! ## MRS (R308, R309) -/

/-- One register written in one cycle. -/
theorem setX_tally_effect (s : State) (rd : Reg) (v : Word) (k : Nat) :
    RegisterEffect s [(rd, v)] s.nzcv k ((s.setX rd v).tally k) :=
  ⟨(((Effect.refl s).setX rd v).tally k).zero_add, SameBus.of_eq (State.setX_bus s rd v)⟩

/-- Settles O17: CPSR, or the SPSR that the mode has, in one register write. -/
theorem mrsCopies : Obligations.MrsCopies := by
  intro s c rd hc
  constructor
  · rw [exec, execArmMrs, conditional_pass hc]
    exact ⟨_, rfl, setX_tally_effect s rd s.cpu.cpsr 1⟩
  · intro p hp
    rw [exec, execArmMrs, conditional_pass hc, if_pos rfl, hp]
    exact ⟨_, rfl, setX_tally_effect s rd p 1⟩

/-! ## The bits that MSR writes (R310-R312) -/

/-- Each field bit selects one byte. -/
theorem getLsbD_fieldMask (fm : BitVec 4) {k : Nat} (hk : k < 32) : (fieldMask fm).getLsbD k = fm.getLsbD (k / 8) := by
  revert fm k
  decide

/-- In CPSR never T, and in USER mode only the flags byte. -/
theorem getLsbD_cpsrMask (s : State) (fm : BitVec 4) {k : Nat} (hk : k < 32) :
    (s.cpsrMask fm).getLsbD k = decide (fm.getLsbD (k / 8) = true ∧ k ≠ 5 ∧ (s.mode = .usr → 24 ≤ k)) := by
  have hflags : ∀ k < 32, (0xFF000000#32).getLsbD k = decide (24 ≤ k) := by decide
  have hthumb : ∀ k < 32, (0xFFFFFFDF#32).getLsbD k = decide (k ≠ 5) := by decide
  rw [State.cpsrMask, BitVec.getLsbD_and, hthumb k hk]
  by_cases hm : s.mode = .usr
  · rw [if_pos hm, BitVec.getLsbD_and, getLsbD_fieldMask fm hk, hflags k hk]
    simp [hm, Bool.and_assoc, Bool.and_comm (!decide (k = 5))]
  · rw [if_neg hm, getLsbD_fieldMask fm hk]
    simp [hm]

theorem eq_mergeBits_iff {mask old v new : Word} :
    new = mergeBits mask old v ↔
      ∀ k, k < 32 → new.getLsbD k = if mask.getLsbD k = true then v.getLsbD k else old.getLsbD k := by
  constructor
  · rintro rfl k hk
    exact getLsbD_mergeBits hk mask old v
  · intro h
    exact BitVec.eq_of_getLsbD_eq fun k hk => (h k hk).trans (getLsbD_mergeBits hk mask old v).symm

/-! ## MSR -/

/-- Both operand forms move their value under the condition (R312, R313). -/
theorem exec_msr {p : Bool} {fm : BitVec 4} {i : Instr} {v : Word} {rm : Reg} {rot : BitVec 4} {imm8 : BitVec 8}
    (h : (i, v) = (.armMsrReg c p fm rm, s.x rm) ∨
      (i, v) = (.armMsrImm c p fm rot imm8, ror (BitVec.ofNat 32 imm8.toNat) (2 * rot.toNat))) :
    exec i s = conditional c s (moveToPsr p fm v) := by
  rcases h with h | h
  · obtain ⟨rfl, rfl⟩ := Prod.mk.inj h
    rfl
  · obtain ⟨rfl, rfl⟩ := Prod.mk.inj h
    rw [BitVec.ofNat_toNat]
    rfl

section

variable {fm : BitVec 4} {v : Word}

theorem moveToPsr_cpsr_legal (h : legalMode (mergeBits (s.cpsrMask fm) s.cpu.cpsr v) = true) :
    moveToPsr false fm v s = .next ((s.setCpsr (mergeBits (s.cpsrMask fm) s.cpu.cpsr v)).tally 1) := by
  simp [moveToPsr, h]

theorem moveToPsr_cpsr_illegal (h : legalMode (mergeBits (s.cpsrMask fm) s.cpu.cpsr v) = false) :
    moveToPsr false fm v s = fatalExecute s := by
  simp [moveToPsr, h]

theorem moveToPsr_spsr {old : Word} (h : s.cpu.spsr.get s.mode = some old) :
    moveToPsr true fm v s = .next (State.tally { s with cpu := { s.cpu with
      spsr := s.cpu.spsr.set s.mode (mergeBits (fieldMask fm) old v) } } 1) := by
  simp [moveToPsr, h]

theorem moveToPsr_noSpsr (h : s.cpu.spsr.get s.mode = none) : moveToPsr true fm v s = fatalExecute s := by
  simp [moveToPsr, h]

end

/-- A status register replaced in one cycle. -/
theorem statusStep_tally (s : State) (cpsr : Word) (spsr : Spsrs) :
    StatusStep s cpsr spsr (State.tally { s with cpu := { s.cpu with cpsr := cpsr, spsr := spsr } } 1) :=
  ⟨rfl, rfl, rfl, rfl, SameBus.of_eq rfl, rfl, rfl, rfl, rfl, rfl, rfl, rfl, rfl, rfl⟩

/-- Settles O18: the value described bit by bit is the merge under the mask of the destination. -/
theorem msrWritesFields : Obligations.MsrWritesFields := by
  intro s c p fm i v new rm rot imm8 hc hi
  have he := exec_msr hi
  have hstep := he.trans (conditional_pass hc _)
  constructor
  · rintro rfl hbits
    obtain rfl : new = mergeBits (s.cpsrMask fm) s.cpu.cpsr v := eq_mergeBits_iff.mpr fun k hk => by
      rw [hbits k hk, getLsbD_cpsrMask s fm hk]
      simp only [decide_eq_true_eq]
    exact ⟨fun hl => ⟨_, hstep.trans (moveToPsr_cpsr_legal hl), statusStep_tally s _ _⟩,
      fun hl => endsFatal_of_conditional hc he (moveToPsr_cpsr_illegal hl)⟩
  · rintro rfl old hold hbits
    obtain rfl : new = mergeBits (fieldMask fm) old v := eq_mergeBits_iff.mpr fun k hk => by
      rw [hbits k hk, getLsbD_fieldMask fm hk]
    exact ⟨_, hstep.trans (moveToPsr_spsr hold), statusStep_tally s _ _⟩

/-! ## What is fatal (R309, R310, R314) -/

theorem decodeArm_reservedPsr {w : Word} (h : w &&& 0x0FB00000#32 = 0x03000000#32) :
    decodeArm w = .armReservedPsr (Cond.ofBits (w.extractLsb' 28 4)) := by
  have h21 : w.getLsbD 21 = false := getLsbD_of_row h (k := 21) rfl
  have h25 : w.getLsbD 25 = true := getLsbD_of_row h (k := 25) rfl
  rw [decodeArm_psrTransfer (row_widen h rfl) (.inl h25), decodePsrTransfer, h21, h25]

theorem execArmMrs_noSpsr {rd : Reg} (h : s.cpu.spsr.get s.mode = none) :
    execArmMrs c true rd s = conditional c s fatalExecute := by
  simp [execArmMrs, conditional, h]

/-- Settles O19: the reserved words by their row, and the modes without an SPSR by the missing register. -/
theorem psrTransferFatal : Obligations.PsrTransferFatal := by
  refine ⟨fun w => decodeArm_reservedPsr, fun s c i rd rm fm rot imm8 hc ht hi => ?_⟩
  have hx : fatalExecute s = fatal (.executeError s.cpu.cur false) s := by rw [fatalExecute, ht]
  rcases hi with ⟨hm, hi⟩ | rfl
  · have hnone : s.cpu.spsr.get s.mode = none := by rcases hm with hm | hm <;> rw [hm] <;> rfl
    simp only [List.mem_cons, List.not_mem_nil, or_false] at hi
    rcases hi with rfl | rfl | rfl
    · exact endsFatal_of_conditional hc (execArmMrs_noSpsr hnone) hx
    · exact endsFatal_of_conditional hc rfl ((moveToPsr_noSpsr hnone).trans hx)
    · exact endsFatal_of_conditional hc rfl ((moveToPsr_noSpsr hnone).trans hx)
  · exact endsFatal_of_conditional hc rfl hx

end Sys2Proof.Machine
end

section
/-! What a byte of the bus is read from, and the single loads (spec `20_memory.md` R71-R94; `42_arm_load_store.md` R320-R334). -/

namespace Sys2Proof.Machine

variable {s t : State} {c : Cond}

/-! ## What a byte is read from (R71) -/

/-- Two buses agree on what the byte at `a` is read from. -/
structure SameSource (a : Word) (b b' : Bus) : Prop where
  params : b'.params = b.params
  bios : regionOf a = .bios → b'.biosBus = b.biosBus
  io : regionOf a = .io → b'.io = b.io
  rom : regionOf a = .rom → eepromWindow b' a false = eepromWindow b a false ∧
    (eepromWindow b a false = true → b'.eeprom.readBit = b.eeprom.readBit)
  backup : regionOf a = .backup → b'.flash = b.flash ∧ ∀ i, b'.mem.read (sramKey i) = b.mem.read (sramKey i)
  ram : (regionOf a).isRam → b'.mem.read (ramKey a) = b.mem.read (ramKey a)

variable {a : Word} {b b' : Bus}

theorem SameSource.readLane (h : SameSource a b b') (r15 : Word) : readLane b' r15 a .byte 0 = readLane b r15 a .byte 0 := by
  unfold Machine.readLane
  cases hr : regionOf a
  case bios => simp only [h.params, h.bios hr]
  case unmapped => rfl
  case io => simp only [ioReadByte, h.params, h.io hr]
  case rom => simp only [romByte, h.params]
  case backup =>
    obtain ⟨hflash, hsram⟩ := h.backup hr
    simp only [backupReadByte, h.params, hflash, hsram]
  case ewram => exact h.ram (.inl hr)
  case iwram => exact h.ram (.inr (.inl hr))
  case pal => exact h.ram (.inr (.inr (.inl hr)))
  case vram => exact h.ram (.inr (.inr (.inr (.inl hr))))
  case oam => exact h.ram (.inr (.inr (.inr (.inr hr))))

theorem SameSource.window (h : SameSource a b b') : eepromWindow b' a false = eepromWindow b a false := by
  by_cases hr : regionOf a = .rom
  · exact (h.rom hr).1
  · rw [eepromWindow_of_not_rom b' a false hr, eepromWindow_of_not_rom b a false hr]

theorem SameSource.readRaw (h : SameSource a b b') (r15 : Word) : readRaw b' r15 a .byte = readRaw b r15 a .byte := by
  cases hw : eepromWindow b a false with
  | false =>
    rw [readRaw_of_no_window (w := .byte) (h.window.trans hw), readRaw_of_no_window (w := .byte) hw]
    exact congrArg (·.setWidth 32) (h.readLane r15)
  | true =>
    have hrom : regionOf a = .rom := by
      by_contra hr
      rw [eepromWindow_of_not_rom b a false hr] at hw
      exact absurd hw (by decide)
    rw [readRaw_of_window (w := .byte) (h.window.trans hw), readRaw_of_window (w := .byte) hw, (h.rom hrom).2 hw]

/-! ## Single loads -/

/-- A read moves at most the read index (R94). -/
theorem exists_afterRead_eq (b : Bus) (addr : Word) (w : Width) :
    ∃ n, afterRead b addr w = { b with eeprom := { b.eeprom with readIdx := n } } := by
  unfold afterRead Eeprom.afterRead
  split
  · split
    · exact ⟨_, rfl⟩
    · exact ⟨_, rfl⟩
  · exact ⟨_, rfl⟩

theorem sameBusButReadIdx_of_afterRead {addr : Word} {w : Width} (h : t.bus = afterRead s.bus addr w) :
    SameBusButReadIdx s t := by
  obtain ⟨n, hn⟩ := exists_afterRead_eq s.bus addr w
  rw [hn] at h
  have source (a : Word) (ha : eepromWindow s.bus a false = false) : SameSource a s.bus t.bus := by
    rw [h]
    exact ⟨rfl, fun _ => rfl, fun _ => rfl, fun _ => ⟨rfl, fun hw => absurd (ha.symm.trans hw) (by decide)⟩,
      fun _ => ⟨rfl, fun _ => rfl⟩, fun _ => rfl⟩
  refine ⟨?_, ?_, ?_, ?_, ?_, ?_, ?_, ?_, ?_, ?_, fun r15 a ha => (source a ha).readRaw r15⟩
  all_goals rw [h]

/-- An effect whose bus is that of one read is a load. -/
theorem Effect.loadStep {l : List (Reg × Word)} {k : Nat} {addr : Word} {w : Width} (h : Effect s l s.nzcv k t)
    (hb : t.bus = Machine.afterRead s.bus addr w) : LoadStep s addr w l k t :=
  ⟨h, hb, sameBusButReadIdx_of_afterRead hb⟩

theorem memRead_word (s : State) (addr : Word) : s.memRead addr .word = loadedValue s .word addr := by
  show ror _ (8 * (addr &&& 3#32).toNat) = _
  rw [toNat_and_mask (n := 2) addr rfl]
  rfl

theorem memRead_half (s : State) (addr : Word) : s.memRead addr .half = loadedValue s .half addr := by
  show ror _ (8 * (addr &&& 1#32).toNat) = _
  rw [toNat_and_mask (n := 1) addr rfl]
  rfl

/-- The value that a load gives Rd, kind by kind (R323, R324, R332-R334). -/
theorem load_eq_loadedValue (s : State) (k : LoadKind) (addr : Word) : s.load k addr = loadedValue s k addr := by
  cases k
  case word => exact memRead_word s addr
  case byte => rfl
  case half => exact memRead_half s addr
  case signedByte => rfl
  case signedHalf =>
    have hodd : addr.getLsbD 0 = true ↔ addr.toNat % 2 = 1 := by
      rw [BitVec.getLsbD, Nat.testBit_zero, decide_eq_true_iff]
    exact if_congr hodd rfl rfl

@[simp] theorem State.writeBack_bus (s : State) (ix : Indexing) (rn : Reg) (v : Word) : (s.writeBack ix rn v).bus = s.bus := by
  unfold State.writeBack; split <;> simp

/-- The base is written back when post-indexed or when W = 1 (R320). -/
theorem Effect.writeBack {l : List (Reg × Word)} {fl : Bool × Bool × Bool × Bool} {k : Nat} (h : Effect s l fl k t)
    (ix : Indexing) (rn : Reg) (base off : Word) :
    Effect s (l ++ baseWrites ix rn base off) fl k (t.writeBack ix rn (indexed ix base off)) := by
  have hix : writesBack ix = true ↔ ix.pre = false ∨ ix.wback = true := by simp [writesBack]
  unfold State.writeBack baseWrites
  by_cases hw : ix.pre = false ∨ ix.wback = true
  · rw [if_pos (hix.mpr hw), if_pos hw]
    exact h.setX rn _
  · rw [if_neg (mt hix.mp hw), if_neg hw, List.append_nil]
    exact h

/-- The skeleton of a load: access, write-back, then Rd (R320, R330). -/
theorem singleLoad_spec (k : LoadKind) (ix : Indexing) (rn rd : Reg) (off : Word) (hc : s.condPass c = true) :
    Completes (singleLoad k c ix rn rd off s) (LoadStep s (addressOf ix (s.x rn) off) (k.width (addressOf ix (s.x rn) off))
      (baseWrites ix rn (s.x rn) off ++ [(rd, loadedValue s k (addressOf ix (s.x rn) off))]) (if rd = 15#4 then 5 else 3)) := by
  rw [singleLoad, conditional_pass hc, ← load_eq_loadedValue]
  refine ⟨_, rfl, Effect.loadStep ?_ ?_⟩
  · exact (((((Effect.refl s).afterRead _ _).writeBack ix rn _ _).setX rd _).tally _).zero_add
  · exact (State.setX_bus _ _ _).trans (State.writeBack_bus _ _ _ _)

/-- Settles O20: every row is the skeleton of a load. -/
theorem armLoads : Obligations.ArmLoads := by
  intro s c ix rn rd o h i k off hc hi
  have hspec := singleLoad_spec k ix rn rd off hc
  simp only [armLoadRows, List.mem_cons, Prod.mk.injEq, List.not_mem_nil, or_false] at hi
  rcases hi with ⟨rfl, rfl, rfl⟩ | ⟨rfl, rfl, rfl⟩ | ⟨rfl, rfl, rfl⟩ | ⟨rfl, rfl, rfl⟩ | ⟨rfl, rfl, rfl⟩
  all_goals exact hspec

end Sys2Proof.Machine
end

section
/-! What a store leaves behind the bus, region by region, and the single stores and the swap (spec `20_memory.md` R71-R91;
`42_arm_load_store.md` R320-R331, R345, R346). -/

namespace Sys2Proof.Machine

variable {s t : State} {c : Cond} {a addr : Word} {w : Width} {v : Word} {b b' : Bus}

/-! ## Keys of RAM (R71, R78) -/

/-- The first key of a region of RAM. -/
def Region.base : Region → Nat
  | .ewram => 0x02000000
  | .iwram => 0x03000000
  | .pal => 0x05000000
  | .vram => 0x06000000
  | .oam => 0x07000000
  | _ => 0

theorem Region.base_spec {g : Region} (h : g.isRam) : g.base % 2 ^ 24 = 0 ∧ g.base ≤ 0x07000000 := by
  rcases h with rfl | rfl | rfl | rfl | rfl <;> decide

theorem Region.base_inj {g g' : Region} (h : g.isRam) (h' : g'.isRam) (he : g.base = g'.base) : g = g' := by
  rcases h with rfl | rfl | rfl | rfl | rfl <;> rcases h' with rfl | rfl | rfl | rfl | rfl <;> simp_all [Region.base]

/-- A key is the base of its region and the address under a mask that keeps the ten low bits. -/
theorem exists_ramKey_eq (h : (regionOf a).isRam) :
    ∃ m : Word, m &&& 0x3FF#32 = 0x3FF#32 ∧ m.toNat < 2 ^ 24 ∧ ramKey a = (regionOf a).base + (a &&& m).toNat := by
  unfold ramKey
  rcases h with h | h | h | h | h <;> rw [h]
  case inr.inr.inr.inl => exact ⟨_, by split <;> decide, by split <;> decide, rfl⟩
  all_goals exact ⟨_, by decide, by decide, rfl⟩

theorem exists_ramKey_offset (h : (regionOf a).isRam) : ∃ n < 2 ^ 24, ramKey a = (regionOf a).base + n := by
  obtain ⟨m, -, hm, hkey⟩ := exists_ramKey_eq h
  exact ⟨_, lt_of_le_of_lt (by rw [BitVec.toNat_and]; exact Nat.and_le_right) hm, hkey⟩

theorem ramKey_lt (h : (regionOf a).isRam) : ramKey a < 0x08000000 := by
  obtain ⟨n, hn, hkey⟩ := exists_ramKey_offset h
  have := (Region.base_spec h).2
  omega

/-- A key names its region. -/
theorem regionOf_eq_of_ramKey_eq {a' : Word} (h : (regionOf a).isRam) (h' : (regionOf a').isRam)
    (hk : ramKey a = ramKey a') : regionOf a = regionOf a' := by
  obtain ⟨n, hn, hkey⟩ := exists_ramKey_offset h
  obtain ⟨n', hn', hkey'⟩ := exists_ramKey_offset h'
  have hb := (Region.base_spec h).1
  have hb' := (Region.base_spec h').1
  exact Region.base_inj h h' (by omega)

/-- Mirrors lie at multiples of 1024 bytes, so a key keeps the ten low bits of its address. -/
theorem ramKey_mod (h : (regionOf a).isRam) : ramKey a % 1024 = a.toNat % 1024 := by
  obtain ⟨m, hm, -, hkey⟩ := exists_ramKey_eq h
  have hlow : (a &&& m).toNat % 2 ^ 10 = a.toNat % 2 ^ 10 := by
    rw [← toNat_and_mask (m := 0x3FF#32) _ rfl, ← toNat_and_mask (m := 0x3FF#32) a rfl, BitVec.and_assoc, hm]
  have := (Region.base_spec h).1
  omega

theorem isRam_of_storesPlainly (h : storesPlainly a w = true) : (regionOf a).isRam := by
  rcases storesPlainly_cases h with hr | hr | ⟨-, hr | hr | hr⟩ <;> simp [Region.isRam, hr]

theorem ne_rom_of_isRam {g : Region} (h : g.isRam) : g ≠ .rom := by
  rcases h with rfl | rfl | rfl | rfl | rfl <;> decide

theorem readRaw_byte_of_ram (h : (regionOf a).isRam) (b : Bus) (r15 : Word) :
    readRaw b r15 a .byte = (b.mem.read (ramKey a)).setWidth 32 := by
  rw [readRaw_of_not_rom (ne_rom_of_isRam h)]
  show (readLane b r15 a .byte 0).setWidth 32 = _
  unfold readLane
  rcases h with h | h | h | h | h <;> rw [h] <;> rfl

/-! ## Bytes stored in RAM (R77, R86, R91) -/

/-- A byte of RAM that no plain store at `addr` writes has its key outside the stored ones. -/
theorem ramKey_outside_of_not_storedByte (ha : (regionOf a).isRam) (haddr : (regionOf addr).isRam)
    (h : ¬ storedByte addr w a) : ramKey a < ramKey (w.align addr) ∨ ramKey (w.align addr) + w.bytes ≤ ramKey a := by
  by_contra hin
  obtain ⟨k, hk⟩ := Nat.exists_eq_add_of_le (show ramKey (w.align addr) ≤ ramKey a by omega)
  have hlt : k < w.bytes := by omega
  have hregion := regionOf_align_add addr hlt
  refine h ⟨?_, by omega, by omega⟩
  rw [← hregion] at haddr ⊢
  exact regionOf_eq_of_ramKey_eq ha haddr (hk.trans (ramKey_align_add addr hlt (hregion ▸ haddr)).symm)

/-- Two stores of bytes that agree at a byte's own key, and on SRAM, give it the same source. -/
theorem sameSource_of_mem {m : Memory} (hram : (regionOf a).isRam → m.read (ramKey a) = b.mem.read (ramKey a))
    (hsram : ∀ i, 0x08000000 ≤ i → m.read i = b.mem.read i) : SameSource a b { b with mem := m } :=
  ⟨rfl, fun _ => rfl, fun _ => rfl, fun _ => ⟨rfl, fun _ => rfl⟩,
    fun _ => ⟨rfl, fun i => hsram _ (by unfold sramKey; omega)⟩, hram⟩

theorem ramKey_align_add_bytes_le (h : (regionOf addr).isRam) : ramKey (w.align addr) + w.bytes ≤ 0x08000000 := by
  obtain ⟨k, hk⟩ : ∃ k, w.bytes = k + 1 := by cases w <;> exact ⟨_, rfl⟩
  have hlt : k < w.bytes := by omega
  have hr : (regionOf (w.align addr + BitVec.ofNat 32 k)).isRam := by rwa [regionOf_align_add addr hlt]
  have := ramKey_lt hr
  rw [ramKey_align_add addr hlt h] at this
  omega

/-- Bytes stored at the keys of an access are a plain store. -/
theorem plainStore_of_ram (h : (regionOf addr).isRam) (hwf : s.bus.mem.wf)
    (ht : t.bus = { s.bus with mem := writeBytes s.bus.mem (ramKey (w.align addr)) w v }) : PlainStore s addr w v t where
  stored k hk r15 := by
    rw [readRaw_byte_of_ram (by rwa [regionOf_align_add addr hk]), ramKey_align_add addr hk h, ht]
    exact congrArg (·.setWidth 32) (read_writeBytes_same _ _ _ _ hwf k hk)
  others r15 a ha := by
    rw [ht]
    refine SameSource.readRaw (sameSource_of_mem (fun hr => ?_) fun i hi => ?_) r15
    · exact read_writeBytes_other _ _ _ _ _ (ramKey_outside_of_not_storedByte hr h ha)
    · exact read_writeBytes_other _ _ _ _ _ (.inr (le_trans (ramKey_align_add_bytes_le h) hi))
  rest := by rw [ht]

theorem lane_twice (u : Byte) {k : Nat} (hk : k < 2) : lane ((u ++ u).setWidth 32) k = u := by
  have hlow : lane ((u ++ u).setWidth 32) k = lane (u ++ u) k := by
    refine BitVec.eq_of_getLsbD_eq fun j hj => ?_
    rw [getLsbD_lane, getLsbD_lane, BitVec.getLsbD_setWidth, decide_eq_true (show 8 * k + j < 32 by omega), Bool.true_and]
  rw [hlow]
  interval_cases k <;> simp

/-- A byte to PAL or VRAM is stored as a halfword of two copies (R77, R78). -/
theorem busWrite_of_video (h : regionOf addr = .pal ∨ regionOf addr = .vram) (r15 v : Word) (b : Bus) :
    busWrite r15 addr .byte v b = { b with
      mem := writeBytes b.mem (ramKey (Width.half.align addr)) .half ((lane v 0 ++ lane v 0).setWidth 32) } := by
  have hrom : regionOf addr ≠ .rom := by rcases h with h | h <;> rw [h] <;> decide
  have hvideo : writeVideo b.mem addr .byte v =
      writeBytes b.mem (ramKey (Width.half.align addr)) .half ((lane v 0 ++ lane v 0).setWidth 32) := by
    simp only [writeBytes, eachLane, lane_twice _ (show 0 < 2 by decide), lane_twice _ (show 1 < 2 by decide)]
    rfl
  simp only [busWrite, writeWith, Width.align, eepromWindow_of_not_rom b addr true hrom, Bool.false_eq_true, if_false]
  rcases h with h | h <;> rw [h] <;> simp only [hvideo] <;> rfl

/-! ## Stores that change nothing (R72, R73, R80, R86) -/

theorem busWrite_ignored (h : regionOf addr = .bios ∨ regionOf addr = .unmapped ∨ (regionOf addr = .oam ∧ w = .byte) ∨
      (regionOf addr = .rom ∧ eepromWindow b (w.align addr) true = false)) (r15 v : Word) :
    busWrite r15 addr w v b = b := by
  have hwin : eepromWindow b (w.align addr) true = false := by
    by_cases hrom : regionOf addr = .rom
    · rcases h with h | h | h | h
      · rw [hrom] at h; cases h
      · rw [hrom] at h; cases h
      · rw [hrom] at h; cases h.1
      · exact h.2
    · exact eepromWindow_of_not_rom b _ true (by rwa [regionOf_align])
  simp only [busWrite, writeWith, hwin, regionOf_align, Bool.false_eq_true, if_false]
  rcases h with h | h | ⟨h, hw⟩ | ⟨h, -⟩ <;> rw [h]
  simp only [hw, if_true]

/-! ## Stores to a device -/

/-- What a device of a region may change behind the bus: its own part, and nothing that another region reads. -/
structure DeviceStore (g : Region) (b b' : Bus) : Prop where
  params : b'.params = b.params
  biosBus : b'.biosBus = b.biosBus
  refusal : b'.refusal = b.refusal
  io : g ≠ .io → b'.io = b.io
  eeprom : g ≠ .rom → b'.eeprom = b.eeprom
  flash : g ≠ .backup → b'.flash = b.flash
  sram : g ≠ .backup → b'.mem = b.mem
  ram : ∀ i < 0x08000000, b'.mem.read i = b.mem.read i

theorem DeviceStore.refl (g : Region) (b : Bus) : DeviceStore g b b :=
  ⟨rfl, rfl, rfl, fun _ => rfl, fun _ => rfl, fun _ => rfl, fun _ => rfl, fun _ _ => rfl⟩

theorem DeviceStore.sameSource {g : Region} (h : DeviceStore g b b') (ha : regionOf a ≠ g) : SameSource a b b' where
  params := h.params
  bios _ := h.biosBus
  io hr := h.io fun hg => ha (hr.trans hg.symm)
  rom hr := by
    have he := h.eeprom fun hg => ha (hr.trans hg.symm)
    exact ⟨by rw [eepromWindow, eepromWindow, h.params, he], fun _ => by rw [he]⟩
  backup hr := by
    have hg : g ≠ .backup := fun hg => ha (hr.trans hg.symm)
    exact ⟨h.flash hg, fun i => by rw [h.sram hg]⟩
  ram hr := h.ram _ (ramKey_lt hr)

theorem DeviceStore.sameOutside {g : Region} (h : DeviceStore g s.bus t.bus) : SameOutside g s t :=
  fun r15 _ ha => (h.sameSource ha).readRaw r15

/-- What every lane of an access keeps, the access keeps. -/
theorem eachLane_keeps_of_lt {σ : Type} (P : σ → Prop) (w : Width) (v : Word) {f : Nat → Byte → σ → σ}
    (hf : ∀ k < w.bytes, ∀ u s, P s → P (f k u s)) {s : σ} (h : P s) : P (eachLane w v f s) := by
  cases w
  · exact hf 0 (by decide) _ _ h
  · exact hf 1 (by decide) _ _ (hf 0 (by decide) _ _ h)
  · exact hf 3 (by decide) _ _ (hf 2 (by decide) _ _ (hf 1 (by decide) _ _ (hf 0 (by decide) _ _ h)))

/-- A lane of no DMA control register stays inside the I/O file, the waitstate tables and the run state. -/
theorem DeviceStore.ioWriteByte {off : Nat} (hoff : ∀ c k, ioLane off ≠ .dmaCntH c k) (edge : Fin 4 → Bus → Bus)
    (r15 : Word) (u : Byte) (h : DeviceStore .io b b') : DeviceStore .io b (ioWriteByte edge r15 off u b') := by
  obtain ⟨h1, h2, h3, -, h5, h6, h7, h8⟩ := h
  have inside (io : Io) (wait : WaitTables) (state : RunState) :
      DeviceStore .io b { b' with io := io, wait := wait, run := state } :=
    ⟨h1, h2, h3, fun hne => absurd rfl hne, h5, h6, h7, h8⟩
  unfold Machine.ioWriteByte
  cases hl : ioLane off
  case dmaCntH c k => exact absurd hl (hoff c k)
  case tmCntH t k => dsimp only; split <;> exact inside _ _ _
  case ime k => dsimp only; split <;> exact inside _ _ _
  case other off =>
    dsimp only
    split
    · split <;> exact inside _ _ _
    · exact inside _ _ _
  all_goals exact inside _ _ _

/-- A byte in the backup window changes the Flash and SRAM. -/
theorem DeviceStore.backupWriteByte (off : Nat) (u : Byte) (h : DeviceStore .backup b b') :
    DeviceStore .backup b (backupWriteByte off u b') where
  params := h.params
  biosBus := h.biosBus
  refusal := h.refusal
  io := h.io
  eeprom := h.eeprom
  flash hne := absurd rfl hne
  sram hne := absurd rfl hne
  ram i hi := by
    refine Eq.trans ?_ (h.ram i hi)
    unfold Machine.backupWriteByte
    dsimp only
    split
    · rfl
    · exact Memory.read_write_other _ _ (by unfold sramKey; omega)

/-- No byte of the access is one of a DMA control register. -/
theorem ioLane_ne_dmaCntH (hio : regionOf addr = .io) (h : reachesDmaControl addr w = false) {k : Nat} (hk : k < w.bytes)
    (c : Fin 4) (j : Nat) : ioLane (offsetOf (w.align addr) + k) ≠ .dmaCntH c j := by
  intro hl
  have hreach : reachesDmaControl addr w = true := by
    simp only [reachesDmaControl, regionOf_align, hio, Bool.and_eq_true, List.any_eq_true, List.mem_range]
    exact ⟨rfl, k, hk, by rw [hl]⟩
  exact absurd (h.symm.trans hreach) (by decide)

/-- A store to a device that reaches no DMA control register changes the device alone. -/
theorem deviceStore_busWrite (h : regionOf addr = .io ∨ regionOf addr = .backup ∨ regionOf addr = .rom)
    (hdma : reachesDmaControl addr w = false) (r15 v : Word) (b : Bus) :
    DeviceStore (regionOf addr) b (busWrite r15 addr w v b) := by
  rcases h with h | h | h <;> rw [h]
  · by_cases hle : offsetOf (w.align addr) ≤ 0x3FF
    · rw [busWrite_of_io h rfl hle]
      exact eachLane_keeps_of_lt _ w v
        (fun k hk u _ hb => hb.ioWriteByte (ioLane_ne_dmaCntH h hdma hk) _ r15 u) (DeviceStore.refl _ b)
    · have hwin := eepromWindow_of_not_rom b (w.align addr) true (by rw [regionOf_align, h]; decide)
      simp only [busWrite, writeWith, hwin, regionOf_align, h, hle, Bool.false_eq_true, if_false]
      exact DeviceStore.refl _ b
  · have hwin := eepromWindow_of_not_rom b (w.align addr) true (by rw [regionOf_align, h]; decide)
    simp only [busWrite, writeWith, hwin, regionOf_align, h, Bool.false_eq_true, if_false]
    exact eachLane_keeps_of_lt _ w v (fun k _ u _ hb => hb.backupWriteByte _ u) (DeviceStore.refl _ b)
  · cases hwin : eepromWindow b (w.align addr) true with
    | false =>
      rw [busWrite_ignored (.inr (.inr (.inr ⟨h, hwin⟩)))]
      exact DeviceStore.refl _ b
    | true =>
      rw [busWrite, writeWith_of_window hwin]
      exact ⟨rfl, rfl, rfl, fun _ => rfl, fun hne => absurd rfl hne, fun _ => rfl, fun _ => rfl, fun _ _ => rfl⟩

/-! ## Any store that reaches no DMA control register -/

/-- Such a store has the effect of its region (R72-R86). -/
theorem storeEffect_of_ready (h : StoreReady s addr w) (ht : t.bus = busWrite s.r15 addr w v s.bus) :
    StoreEffect s addr w v t where
  plain hp := by
    refine plainStore_of_ram (by simpa using isRam_of_storesPlainly hp) h.mem ?_
    rw [ht, busWrite, writeWith_of_plain hp]
  video hw hr := by
    subst hw
    refine plainStore_of_ram ?_ h.mem (ht.trans (busWrite_of_video hr _ _ _))
    rcases hr with hr | hr <;> simp [Region.isRam, hr]
  ignored hi := SameBus.of_eq (ht.trans (busWrite_ignored (by simpa using hi) _ _))
  device hd := by
    rw [regionOf_align] at hd ⊢
    exact DeviceStore.sameOutside (ht ▸ deviceStore_busWrite hd h.noDma _ _ _)

/-- It is never refused (R506). -/
theorem busWrite_refusal (hdma : reachesDmaControl addr w = false) (r15 v : Word) (b : Bus) :
    (busWrite r15 addr w v b).refusal = b.refusal := by
  by_cases hd : regionOf addr = .io ∨ regionOf addr = .backup ∨ regionOf addr = .rom
  · exact (deviceStore_busWrite hd hdma r15 v b).refusal
  · obtain ⟨hio, hbackup, hrom⟩ : regionOf addr ≠ .io ∧ regionOf addr ≠ .backup ∧ regionOf addr ≠ .rom := by
      simpa using hd
    have hwin := eepromWindow_of_not_rom b (w.align addr) true (by rwa [regionOf_align])
    simp only [busWrite, writeWith, hwin, regionOf_align, Bool.false_eq_true, if_false]
    cases hr : regionOf addr
    case io => exact absurd hr hio
    case backup => exact absurd hr hbackup
    case rom => exact absurd hr hrom
    case oam => dsimp only; split <;> rfl
    all_goals rfl

/-- An effect whose bus is that of one store ends a store instruction. -/
theorem Effect.storeStep {l : List (Reg × Word)} {k : Nat} (h : Effect s l s.nzcv k t) (hready : StoreReady s addr w)
    (hb : t.bus = busWrite s.r15 addr w v s.bus) : Completes (finish t) (StoreStep s addr w v l k) := by
  refine ⟨t, finish_next ?_, h, hb, storeEffect_of_ready hready hb⟩
  rw [hb, busWrite_refusal hready.noDma]
  exact hready.refusal

/-! ## Single stores and the swap -/

/-- The skeleton of a store: the data are read before the write-back (R320, R330). -/
theorem singleStore_spec (ix : Indexing) (rn rd : Reg) (off : Word) (hc : s.condPass c = true)
    (h : StoreReady s (addressOf ix (s.x rn) off) w) :
    Completes (singleStore w c ix rn rd off s) (StoreStep s (addressOf ix (s.x rn) off) w (storedData s rd)
      (baseWrites ix rn (s.x rn) off) 2) := by
  have hdata : s.storeData rd = storedData s rd := xAhead_eq s rd
  rw [singleStore, conditional_pass hc, ← hdata]
  refine Effect.storeStep ?_ h (State.writeBack_bus _ _ _ _)
  exact ((((Effect.refl s).memWrite _ _ _).writeBack ix rn _ _).tally 2).zero_add

/-- Settles O21: every row is the skeleton of a store. -/
theorem armStores : Obligations.ArmStores := by
  intro s c ix rn rd o h i w off hc hi addr hready
  have hspec := singleStore_spec ix rn rd off hc hready
  simp only [armStoreRows, List.mem_cons, Prod.mk.injEq, List.not_mem_nil, or_false] at hi
  rcases hi with ⟨rfl, rfl, rfl⟩ | ⟨rfl, rfl, rfl⟩ | ⟨rfl, rfl, rfl⟩
  all_goals exact hspec

/-- The exchange: the old contents are read outside the EEPROM window, then stored over, then Rd is written. -/
theorem finish_swap_spec (rn rd rm : Reg) (h : StoreReady s (s.x rn) w)
    (he : eepromWindow s.bus (w.align (s.x rn)) false = false) :
    Completes (finish ((s.swap w rn rd rm).tally 4)) (StoreStep s (s.x rn) w (s.x rm) [(rd, s.memRead (s.x rn) w)] 4) := by
  rw [State.swap, State.afterRead_of_noEeprom he]
  exact Effect.storeStep ((((Effect.refl s).memWrite _ _ _).setX rd _).tally 4).zero_add h (State.setX_bus _ _ _)

/-- Settles O27: by the parameter, fatal or the exchange. -/
theorem swapExchanges : Obligations.SwapExchanges := by
  intro s c rn rd rm i w k hc hi
  have hexec : exec i s = conditional c s (fun s => if s.bus.params.swpImplemented then
      finish ((s.swap w rn rd rm).tally 4) else fatalUnimplemented s) ∧ s.memRead (s.x rn) w = loadedValue s k (s.x rn) := by
    simp only [List.mem_cons, Prod.mk.injEq, List.not_mem_nil, or_false] at hi
    rcases hi with ⟨rfl, rfl, rfl⟩ | ⟨rfl, rfl, rfl⟩
    · exact ⟨rfl, memRead_word s _⟩
    · exact ⟨rfl, rfl⟩
  obtain ⟨hexec, hload⟩ := hexec
  refine ⟨fun hp => endsFatal_of_conditional hc hexec ?_, fun hp hready he => ?_⟩
  · rw [hp]; rfl
  · rw [hexec, conditional_pass hc, if_pos hp, ← hload]
    exact finish_swap_spec rn rd rm hready he

end Sys2Proof.Machine
end

section
/-! Block transfers: the write-back of the base, LDM without r15, and STM into plain storage (spec `42_arm_load_store.md`
R336-R344). -/

namespace Sys2Proof.Machine

variable {s t : State} {c : Cond} {m : BlockMode} {rn : Reg} {final : Word} {list : BitVec 16}

/-! ## The write-back of the base (R336, R337, R343) -/

/-- The write-back that a block transfer owes when W = 1. -/
def baseWriteBack (m : BlockMode) (rn : Reg) (final : Word) : Option (Reg × Word) :=
  if m.wback then some (rn, final) else none

theorem writeBase_eq (s : State) (m : BlockMode) (rn : Reg) (final : Word) :
    s.writeBase (baseWriteBack m rn final) = if m.wback then s.setX rn final else s := by
  unfold baseWriteBack
  split <;> rfl

@[simp] theorem State.writeBase_bus (s : State) (wb : Option (Reg × Word)) : (s.writeBase wb).bus = s.bus := by
  cases wb with
  | none => rfl
  | some p => exact s.setX_bus p.1 p.2

theorem Effect.writeBase {l : List (Reg × Word)} {fl : Bool × Bool × Bool × Bool} {k : Nat} (h : Effect s l fl k t)
    (m : BlockMode) (rn : Reg) (final : Word) :
    Effect s (l ++ if m.wback then [(rn, final)] else []) fl k (t.writeBase (baseWriteBack m rn final)) := by
  rw [writeBase_eq]
  split
  · exact h.setX rn final
  · rwa [List.append_nil]

theorem writeBase_effect (s : State) (m : BlockMode) (rn : Reg) (final : Word) :
    Effect s (if m.wback then [(rn, final)] else []) s.nzcv 0 (s.writeBase (baseWriteBack m rn final)) :=
  (Effect.refl s).writeBase m rn final

theorem writeBase_get (s : State) (m : BlockMode) (rn : Reg) (final : Word) {p : PhysReg} (hp : p ≠ .r15) :
    (s.writeBase (baseWriteBack m rn final)).cpu.regs.get p =
      if m.wback = true ∧ p = phys s.mode rn then final else s.cpu.regs.get p := by
  rw [writeBase_eq]
  by_cases hw : m.wback = true
  · by_cases h15 : rn = 15#4
    · subst h15
      simp [hw, hp, State.setX_get_pc s hp, -State.setX_pc]
    · simp [hw, State.setX_get s h15]
  · simp [hw]

theorem writeBase_r15 (s : State) (m : BlockMode) (rn : Reg) (final : Word) :
    (s.writeBase (baseWriteBack m rn final)).r15 = r15AtLoads s m rn final := by
  rw [writeBase_eq, r15AtLoads]
  by_cases hw : m.wback = true
  · by_cases h15 : rn = 15#4
    · subst h15; simp [hw]
    · simp [hw, h15, State.setX_r15 s h15]
  · simp [hw]

theorem writeBase_latchValid (s : State) (m : BlockMode) (rn : Reg) (final : Word) :
    (s.writeBase (baseWriteBack m rn final)).cpu.latchValid = (s.cpu.latchValid && !(m.wback && decide (rn = 15#4))) := by
  rw [writeBase_eq]
  by_cases hw : m.wback = true
  · by_cases h15 : rn = 15#4
    · subst h15; simp [hw]
    · simp [hw, h15, State.setX_latchValid s h15]
  · simp [hw]

/-! ## LDM without r15 -/

theorem execArmLdm_noPc (hc : s.condPass c = true) (h15 : list.getLsbD 15 = false) :
    exec (.armLdm c m rn list) s = .next ((s.ldmLow m rn list).tally (listCount list + 2)) := by
  simp only [exec, execArmLdm, conditional_pass hc, h15, Bool.false_eq_true, if_false]

theorem listCount_of_noPc (h15 : list.getLsbD 15 = false) : listCount list = (listedBelow 15 list).length := by
  rw [listCount_eq, h15]
  rfl

/-- Settles O23: the write-back and the loop of loads in the current mode's view. -/
theorem ldmLoads : Obligations.LdmLoads := by
  intro s c m rn list hc hp h15 l start final he
  have hn : listCount list = l.length := listCount_of_noPc h15
  obtain ⟨heffect, hbus, -⟩ := ldmLow_effect (s := s) (m := m) (rn := rn) (list := list) (by simp [hp]) (by rw [hn]; exact he)
  rw [ldmWrites, hn] at heffect
  rw [execArmLdm_noPc hc h15, hn]
  generalize s.ldmLow m rn list = t at heffect hbus
  exact ⟨_, rfl, (heffect.tally _).zero_add, SameBus.of_eq hbus⟩

/-! ## LDM of the USER bank (R340) -/

theorem listedBelow_nodup (list : BitVec 16) {k : Nat} (hk : k ≤ 16) : (listedBelow k list).Nodup := by
  refine (List.nodup_range.filter _).map_on fun i hi j hj he => ?_
  have hi : i < k := List.mem_range.mp (List.mem_filter.mp hi).1
  have hj : j < k := List.mem_range.mp (List.mem_filter.mp hj).1
  have := congrArg BitVec.toNat he
  simp only [BitVec.toNat_ofNat] at this
  omega

/-- `t` is `s` with the words of a block loaded into the USER bank, and nothing else changed. -/
structure UserBankLoaded (s : State) (a : Word) (l : List Reg) (t : State) : Prop where
  loaded : ∀ j i, l[j]? = some i → t.cpu.regs.get (phys .usr i) = readRaw s.bus s.r15 (wordAt a j) .word
  others : ∀ p, (∀ i ∈ l, p ≠ phys .usr i) → t.cpu.regs.get p = s.cpu.regs.get p
  rest : { t with cpu := { t.cpu with regs := s.cpu.regs } } = s

theorem loadRegs_user {l : List Reg} {a : Word} (hl : ∀ i ∈ l, i ≠ 15#4) (hd : l.Nodup) (he : noEeprom s a l.length) :
    UserBankLoaded s a l (s.loadRegs true l a) := by
  induction l generalizing s a with
  | nil => exact ⟨fun j i hj => by simp at hj, fun _ _ => rfl, rfl⟩
  | cons r rest ih =>
    obtain ⟨hr, hrest⟩ := List.forall_mem_cons.mp hl
    obtain ⟨hfresh, hd⟩ := List.nodup_cons.mp hd
    have h0 : s.afterRead a .word = s := State.afterRead_of_noEeprom (by simpa [wordAt_zero] using he 0 (by simp))
    generalize hv : readRaw s.bus s.r15 a .word = v
    have hstep : s.loadRegs true (r :: rest) a = (s.setPhys (phys .usr r) v).loadRegs true rest (a + 4#32) := by
      rw [State.loadRegs, if_pos rfl, h0, State.setXu_of_ne s hr, State.readRaw, hv]
    have hr15 : (s.setPhys (phys .usr r) v).r15 = s.r15 := Regs.r15_set_other _ (phys_ne_r15 _ hr) _
    obtain ⟨hloaded, hothers, hsame⟩ := ih (s := s.setPhys (phys .usr r) v) (a := a + 4#32) hrest hd fun j hj => by
      simpa [wordAt_succ] using he (j + 1) (by simpa using hj)
    rw [hstep]
    refine ⟨fun j i hj => ?_, fun p hp => ?_, ?_⟩
    · cases j with
      | zero =>
        obtain rfl : r = i := by simpa using hj
        rw [hothers _ fun i hi he => hfresh (by rwa [phys_inj _ he]), wordAt_zero, hv]
        exact Regs.get_set_same _ _ _
      | succ j =>
        rw [hloaded j i (by simpa using hj), wordAt_succ, hr15]
        rfl
    · obtain ⟨hpr, hp⟩ := List.forall_mem_cons.mp hp
      rw [hothers p hp]
      exact Regs.get_set_other _ hpr _
    · exact congrArg (fun u : State => { u with cpu := { u.cpu with regs := s.cpu.regs } }) hsame

theorem UserBankLoaded.r15 {a : Word} {l : List Reg} (h : UserBankLoaded s a l t) (hl : ∀ i ∈ l, i ≠ 15#4) : t.r15 = s.r15 :=
  h.others .r15 fun i hi => (phys_ne_r15 _ (hl i hi)).symm

/-- Settles O24: the base in the current mode's view, then the USER bank. -/
theorem ldmUserBank : Obligations.LdmUserBank := by
  intro s c m rn list hc hp h15 l start final he
  have hl : ∀ i ∈ l, i ≠ 15#4 := fun i hi => ne_15_of_mem_listedBelow hi
  have hn : listCount list = l.length := listCount_of_noPc h15
  generalize hbase : s.writeBase (baseWriteBack m rn final) = base
  have hbus : base.bus = s.bus := by rw [← hbase, State.writeBase_bus]
  have heffect : Effect s (if m.wback then [(rn, final)] else []) s.nzcv 0 base := hbase ▸ writeBase_effect s m rn final
  have hr15 : base.r15 = r15AtLoads s m rn final := hbase ▸ writeBase_r15 s m rn final
  have hlow : s.ldmLow m rn list = base.loadRegs true l start := by
    rw [State.ldmLow, hp, h15, listedLow_eq, blockStart_eq, blockFinal_eq, hn, ← writeBase_eq, hbase]
    rfl
  have hload : UserBankLoaded base start l (s.ldmLow m rn list) := by
    rw [hlow]
    exact loadRegs_user hl (listedBelow_nodup list (by decide)) (by unfold noEeprom; rwa [hbus])
  rw [execArmLdm_noPc hc h15, hn]
  generalize s.ldmLow m rn list = t at hload
  refine ⟨_, rfl, fun j i hj => ?_, fun p hp15 hpl => ?_, ?_, ?_, ?_, ?_, ?_, ?_, SameBus.of_eq ?_⟩
  · rw [← hr15, ← hbus]
    exact hload.loaded j i hj
  · rw [← writeBase_get s m rn final hp15, hbase]
    exact hload.others p hpl
  · exact (hload.r15 hl).trans hr15
  · rw [← writeBase_latchValid s m rn final, hbase]
    exact congrArg (·.cpu.latchValid) hload.rest
  · exact (congrArg (·.cpu.cpsr) hload.rest).trans heffect.cpsr_eq
  · exact (congrArg (·.cpu.spsr) hload.rest).trans heffect.spsr
  · exact congrArg (· + (l.length + 2)) ((congrArg (·.cycles) hload.rest).trans heffect.cycles)
  · have hcontrol := heffect.control
    rw [← hload.rest] at hcontrol
    obtain ⟨h1, h2, h3, h4, h5, h6, h7, h8⟩ := hcontrol
    exact ⟨h1, h2, h3, h4, h5, h6, h7, h8⟩
  · exact (congrArg (·.bus) hload.rest).trans hbus

/-! ## The words of a block in plain storage (R337) -/

/-- Storage after words are stored one after the other from an address. -/
def storeWords (mem : Memory) (a : Word) : List Word → Memory
  | [] => mem
  | v :: rest => storeWords (writeBytes mem (ramKey (Width.word.align a)) .word v) (a + 4#32) rest

theorem allPlain_tail {a : Word} {n : Nat} (h : allPlain a (n + 1)) : allPlain (a + 4#32) n := fun j hj => by
  simpa [wordAt_succ] using h (j + 1) (by omega)

theorem allPlain_head {a : Word} {n : Nat} (h : allPlain a (n + 1)) : storesPlainly (Width.word.align a) .word = true := by
  simpa [wordAt_zero] using h 0 (by omega)

theorem read_storeWords_other {mem : Memory} {a : Word} {words : List Word} {i : Nat}
    (h : ∀ j < words.length, i < ramKey (Width.word.align (wordAt a j)) ∨ ramKey (Width.word.align (wordAt a j)) + 4 ≤ i) :
    (storeWords mem a words).read i = mem.read i := by
  induction words generalizing mem a with
  | nil => rfl
  | cons v rest ih =>
    rw [storeWords, ih fun j hj => by simpa [wordAt_succ] using h (j + 1) (by simpa using hj)]
    exact read_writeBytes_other _ _ _ _ _ (by simpa [wordAt_zero, Width.bytes] using h 0 (by simp))

/-- The key of a word is known mod 1024, so the keys of two words of a block of at most 256 are apart. -/
theorem ramKey_word_mod {a : Word} {j : Nat} (h : storesPlainly (Width.word.align (wordAt a j)) .word = true) :
    ramKey (Width.word.align (wordAt a j)) % 1024 = (a.toNat / 4 * 4 + 4 * j) % 1024 := by
  rw [ramKey_mod (isRam_of_storesPlainly h), toNat_align, wordAt, BitVec.toNat_add, BitVec.toNat_ofNat]
  simp only [Width.bytes]
  omega

theorem read_storeWords_same {mem : Memory} (hwf : mem.wf) {a : Word} {words : List Word} (hlen : words.length ≤ 256)
    (hp : allPlain a words.length) {j : Nat} {v : Word} (hj : words[j]? = some v) {k : Nat} (hk : k < 4) :
    (storeWords mem a words).read (ramKey (Width.word.align (wordAt a j)) + k) = lane v k := by
  induction words generalizing mem a j with
  | nil => simp at hj
  | cons u rest ih =>
    have htail := allPlain_tail hp
    cases j with
    | zero =>
      obtain rfl : u = v := by simpa using hj
      have h0 := ramKey_word_mod (hp 0 (by simp))
      rw [storeWords, read_storeWords_other fun j hjr => ?_, wordAt_zero]
      · exact read_writeBytes_same _ _ _ _ hwf k hk
      · have hjk := ramKey_word_mod (hp (j + 1) (by simpa using hjr))
        rw [wordAt_succ] at hjk
        simp only [List.length_cons] at hlen
        omega
    | succ j =>
      rw [storeWords, wordAt_succ]
      exact ih (writeBytes_wf _ _ _ _ hwf) (by simp only [List.length_cons] at hlen; omega) htail (by simpa using hj)

theorem blockStore_of_storeWords {a : Word} {words : List Word} (hwf : s.bus.mem.wf) (hlen : words.length ≤ 256)
    (hp : allPlain a words.length) (ht : t.bus = { s.bus with mem := storeWords s.bus.mem a words }) :
    BlockStore s a words t where
  stored j v hj r15 := by
    have hlt : j < words.length := (List.getElem?_eq_some_iff.mp hj).1
    rw [readRaw_of_plain (hp j hlt), ht, ← assemble_lane_word v]
    exact assemble_congr .word fun k hk => read_storeWords_same hwf hlen hp hj hk
  others r15 a' ha := by
    have hram (j : Nat) (hj : j < words.length) : (regionOf (wordAt a j)).isRam := by
      simpa using isRam_of_storesPlainly (hp j hj)
    rw [ht]
    refine SameSource.readRaw (sameSource_of_mem (fun hr => read_storeWords_other fun j hj => ?_)
      fun i hi => read_storeWords_other fun j hj => .inr (le_trans ?_ hi)) r15
    · exact ramKey_outside_of_not_storedByte hr (hram j hj) (ha j hj)
    · exact ramKey_align_add_bytes_le (w := .word) (hram j hj)
  rest := by rw [ht]

/-! ## The store loop (R337) -/

/-- Without a write-back pending the loop changes storage alone. -/
theorem storeRegs_none {user : Bool} {l : List Reg} {a : Word} (hp : allPlain a l.length) :
    s.storeRegs user none l a =
      { s with bus := { s.bus with mem := storeWords s.bus.mem a (l.map (s.blockData user)) } } := by
  induction l generalizing s a with
  | nil => rfl
  | cons r rest ih =>
    rw [State.storeRegs, State.writeBase, ih (allPlain_tail hp), State.memWrite, busWrite,
      writeWith_of_plain (allPlain_head hp)]
    rfl

/-- The write-back that is pending is done after the first store. -/
theorem storeRegs_cons {user : Bool} {wb : Option (Reg × Word)} {r : Reg} {rest : List Reg} {a : Word}
    (hp : allPlain a (rest.length + 1)) :
    s.storeRegs user wb (r :: rest) a =
      { s.writeBase wb with
        bus := { s.bus with
          mem := storeWords s.bus.mem a (s.blockData user r :: rest.map ((s.writeBase wb).blockData user)) } } := by
  have hfirst : (s.memWrite a .word (s.blockData user r)).writeBase wb =
      { s.writeBase wb with
        bus := { s.bus with mem := writeBytes s.bus.mem (ramKey (Width.word.align a)) .word (s.blockData user r) } } := by
    rw [State.memWrite, busWrite, writeWith_of_plain (allPlain_head hp)]
    cases wb with
    | none => rfl
    | some p => simp only [State.writeBase, State.setX]; split <;> rfl
  rw [State.storeRegs, hfirst, storeRegs_none (allPlain_tail hp)]
  rfl

/-! ## STM -/

/-- The data of the first register are those before the write-back, of every other those after it (R337, R341, R342). -/
theorem stmData_eq (s : State) (m : BlockMode) (rn : Reg) (final : Word) (j : Nat) (i : Reg) :
    stmData s m rn final j i =
      (if j = 0 then s else s.writeBase (baseWriteBack m rn final)).blockData m.psr i := by
  have hmode : (s.writeBase (baseWriteBack m rn final)).mode = s.mode := (writeBase_effect s m rn final).mode
  have hblock (u : State) : u.blockData m.psr i =
      if i = 15#4 then u.r15 + 4#32 else u.cpu.regs.get (phys (if m.psr then .usr else u.mode) i) := by
    unfold State.blockData
    by_cases h15 : i = 15#4
    · subst h15; simp [x_pc]
    · cases m.psr <;> simp [h15, State.x, State.xu]
  rw [hblock, stmData]
  cases j with
  | zero => simp
  | succ j =>
    simp only [Nat.succ_ne_zero, if_false, hmode, writeBase_r15, r15AtLoads, Nat.succ_pos, decide_true, Bool.and_true]
    by_cases h15 : i = 15#4
    · simp only [h15, if_true]
    · rw [if_neg h15, if_neg h15, writeBase_get s m rn final (phys_ne_r15 _ h15)]
      exact if_congr (and_congr_right fun _ => eq_comm) rfl rfl

theorem stmWords_cons (s : State) (m : BlockMode) (rn : Reg) (final : Word) (r : Reg) (rest : List Reg) :
    stmWords s m rn final (r :: rest) =
      s.blockData m.psr r :: rest.map ((s.writeBase (baseWriteBack m rn final)).blockData m.psr) := by
  have hrest : ∀ p : Reg × Nat, stmData s m rn final (p.2 + 1) p.1 =
      (s.writeBase (baseWriteBack m rn final)).blockData m.psr p.1 := fun p => by rw [stmData_eq, if_neg (by omega)]
  rw [stmWords, List.zipIdx_cons, List.map_cons, stmData_eq, if_pos rfl, List.zipIdx_succ, List.map_map]
  conv => rhs; rw [← List.zipIdx_map_fst 0 rest, List.map_map]
  exact congrArg _ (List.map_congr_left fun p _ => hrest p)

theorem listedBelow_eq_nil_iff : listedBelow 16 list = [] ↔ list = 0#16 := by
  rw [listedBelow, List.map_eq_nil_iff, List.filter_eq_nil_iff]
  constructor
  · intro h
    exact BitVec.eq_of_getLsbD_eq fun j hj => by simpa using h j (List.mem_range.mpr hj)
  · rintro rfl j _
    simp

theorem listed_eq (list : BitVec 16) : listed list = listedBelow 16 list := regList_eq_listedBelow list 16

/-- STM writes the base back and stores its words; with an empty list it only writes the base back (R338; log entry 21). -/
theorem stm_eq {l : List Reg} {start : Word} (hl : listedBelow 16 list = l) (hs : blockStartOf m (s.x rn) l.length = start)
    (hf : blockFinalOf m (s.x rn) l.length = final) (hp : allPlain start l.length) :
    s.stm m rn list = { s.writeBase (baseWriteBack m rn final) with
      bus := { s.bus with mem := storeWords s.bus.mem start (stmWords s m rn final l) } } := by
  have hn : listCount list = l.length := by rw [listCount, listed_eq, hl]
  have hwb : (if m.wback then some (rn, blockFinal m (s.x rn) list) else none) = baseWriteBack m rn final := by
    rw [blockFinal_eq, hn, hf]
    rfl
  rw [State.stm, hwb, listed_eq, hl, blockStart_eq, hn, hs]
  cases l with
  | nil =>
    rw [if_pos (listedBelow_eq_nil_iff.mp hl), ← State.writeBase_bus s (baseWriteBack m rn final)]
    rfl
  | cons r rest =>
    have hne : list ≠ 0#16 := fun h => by simp [listedBelow_eq_nil_iff.mpr h] at hl
    rw [if_neg hne, storeRegs_cons hp, stmWords_cons]

/-- Settles O26: the write-back and the words in one equation, then the two frames. -/
theorem stmStores : Obligations.StmStores := by
  intro s c m rn list hc hr hwf l start final hp
  have hlen : l.length ≤ 16 := by
    have := List.length_filter_le (fun j => list.getLsbD j) (List.range 16)
    simpa [l, listedBelow] using this
  have hwords : (stmWords s m rn final l).length = l.length := by simp [stmWords]
  have hn : listCount list = l.length := by rw [listCount, listed_eq]
  have hexec : exec (.armStm c m rn list) s = finish ((s.stm m rn list).tally (listCount list + 1)) := by
    rw [exec, execArmStm, conditional_pass hc]
  rw [hexec, stm_eq rfl rfl rfl hp, hn]
  refine ⟨_, finish_next hr, (((writeBase_effect s m rn final).withBus _).tally _).zero_add, ?_⟩
  exact blockStore_of_storeWords hwf (by omega) (by rwa [hwords]) rfl

end Sys2Proof.Machine
end

section
/-! The branches of ARM state, BX of both states, and the entries of SWI and the Undefined class (spec
`43_arm_branch_system.md` R360-R365; `44_thumb_alu.md` R410; `46_thumb_branch.md` R471; `60_exceptions.md` R531, R532). -/

namespace Sys2Proof.Machine

variable {s t : State} {l : List (Reg × Word)} {fl : Bool × Bool × Bool × Bool}

/-! ## Words and offsets (R360, R361) -/

theorem decodeArm_b {w : Word} (h : w &&& 0x0F000000#32 = 0x0A000000#32) :
    decodeArm w = .armB (Cond.ofBits (w.extractLsb' 28 4)) (w.extractLsb' 0 24) := by
  rw [decodeArm_branch (row_widen h rfl), getLsbD_of_row h (k := 24) rfl]
  rfl

theorem decodeArm_bl {w : Word} (h : w &&& 0x0F000000#32 = 0x0B000000#32) :
    decodeArm w = .armBl (Cond.ofBits (w.extractLsb' 28 4)) (w.extractLsb' 0 24) := by
  rw [decodeArm_branch (row_widen h rfl), getLsbD_of_row h (k := 24) rfl]
  rfl

/-- A branch offset in units of 2^k bytes, sign-extended to a word. -/
theorem signExtend_append_zeros {n : Nat} (off : BitVec n) (k : Nat) :
    (off ++ 0#k).signExtend 32 = BitVec.ofInt 32 (2 ^ k * off.toInt) := by
  rw [BitVec.signExtend, BitVec.toInt_append_zero, mul_comm]

theorem branchOffset24_eq (off : BitVec 24) : branchOffset24 off = BitVec.ofInt 32 (4 * off.toInt) :=
  signExtend_append_zeros off 2

/-! ## Writes of the program counter that end an instruction (R31) -/

/-- Register writes, a new CPSR, and `pc <- v` aligned for the T of that CPSR. -/
theorem Effect.setCpsrThenPc (h : Effect s l fl 0 t) (hb : t.bus = s.bus) (p v : Word) (n : Nat) :
    BranchStep s (l.map fun w => phys s.mode w.1) v p n (((t.setCpsr p).writePc v).tally n) where
  target := rfl
  latch := rfl
  cpsr := rfl
  regs q hq := by
    obtain ⟨hpc, hl⟩ : q ≠ .r15 ∧ ∀ w ∈ l, q ≠ phys s.mode w.1 := by simpa [eq_comm] using hq
    exact ((t.setCpsr p).setX_get_pc hpc v).trans (h.regs.others q hpc hl)
  spsr := h.spsr
  bus := SameBus.of_eq hb
  cycles := congrArg (· + n) h.cycles
  control := by
    obtain ⟨h1, h2, h3, h4, h5, h6, h7, h8⟩ := h.control
    exact ⟨h1, h2, h3, h4, h5, h6, h7, h8⟩

/-- Register writes and `pc <- v`, CPSR unchanged. -/
theorem Effect.branch (h : Effect s l s.nzcv 0 t) (hb : t.bus = s.bus) (v : Word) (n : Nat) :
    BranchStep s (l.map fun w => phys s.mode w.1) v s.cpu.cpsr n ((t.writePc v).tally n) := by
  rw [← h.cpsr_eq]
  exact h.setCpsrThenPc hb t.cpu.cpsr v n

/-- Settles O28: the words by the branch row and bit 24, the steps as a write of pc, with BL after that of the link. -/
theorem branchAndLink : Obligations.BranchAndLink := by
  refine ⟨fun w => ⟨decodeArm_b, decodeArm_bl⟩, fun a => ?_, fun s c off hc => ⟨?_, ?_⟩⟩
  · calc a + 8#32 + BitVec.ofInt 32 (4 * (BitVec.extractLsb' 0 24 0xEAFFFFFE#32).toInt)
      _ = a + (8#32 + -8#32) := BitVec.add_assoc a _ _
      _ = a := BitVec.add_zero a
  · rw [exec, execArmB, conditional_pass hc, x_pc, branchOffset24_eq]
    exact ⟨_, rfl, (Effect.refl s).branch rfl _ 3⟩
  · rw [exec, execArmBl, conditional_pass hc, x_pc, branchOffset24_eq]
    have hlink := (Effect.refl s).setX 14#4 (s.r15 - 4#32)
    refine ⟨_, rfl, hlink.branch (State.setX_bus s _ _) _ 3, ?_⟩
    calc (((s.setX 14#4 (s.r15 - 4#32)).writePc _).tally 3).cpu.regs.get (phys s.mode 14#4)
      _ = (s.setX 14#4 (s.r15 - 4#32)).cpu.regs.get (phys s.mode 14#4) :=
        State.setX_get_pc _ (phys_ne_r15 _ (by decide)) _
      _ = s.r15 - 4#32 := by rw [State.setX_get s (by decide), if_pos rfl]

/-! ## BX (R362, R410) -/

theorem exec_branchExchange {c : Cond} {rn : Reg} {i : Instr}
    (h : i = .armBx c rn ∧ s.condPass c = true ∨ i = .thumbBx rn) :
    exec i s = .next ((s.branchExchange (s.x rn)).tally 3) := by
  obtain ⟨rfl, hc⟩ | rfl := h
  · rw [exec, execArmBx, conditional_pass hc]
  · rfl

/-- No bit but the written one changes, the bits beyond the word included. -/
theorem getLsbD_setBit_of_ne (v : Word) {k j : Nat} (h : j ≠ k) (b : Bool) : (setBit v k b).getLsbD j = v.getLsbD j := by
  by_cases hj : j < 32
  · rw [getLsbD_setBit v k j b hj, if_neg h]
  · rw [BitVec.getLsbD_of_ge _ _ (not_lt.mp hj), BitVec.getLsbD_of_ge _ _ (not_lt.mp hj)]

/-- Settles O29: both states exchange by one operation, which writes bit 5 of CPSR and then pc under the new T. -/
theorem branchExchange : Obligations.BranchExchange := by
  intro s c rn i hi
  refine ⟨_, exec_branchExchange hi, ?_, fun k hk => getLsbD_setBit_of_ne s.cpu.cpsr hk _,
    (Effect.refl s).setCpsrThenPc rfl _ _ 3⟩
  exact (getLsbD_setBit s.cpu.cpsr 5 5 _ (by decide)).trans (if_pos rfl)

/-! ## The entry of an exception (R531, R532) -/

/-- Every entry has the effect its row gives, cycles tallied after it or not. -/
theorem enter_tally_entered (s : State) (e : Exception) {ret : Option Word} (hret : ∀ v, ret = some v → s.returnAddress e = v)
    (k : Nat) : Entered s e ret ((s.enter e).tally k) where
  mode := State.enter_mode s e
  irqMasked := (getLsbD_entryCpsr s.cpu.cpsr e 7 (by decide) (by decide)).trans rfl
  fiqMasked := by
    refine (getLsbD_entryCpsr s.cpu.cpsr e 6 (by decide) (by decide)).trans ?_
    cases e <;> rfl
  arm := State.enter_thumb s e
  status j hlow hj := by
    refine (getLsbD_entryCpsr s.cpu.cpsr e j hj (by omega)).trans ?_
    rw [if_neg (by omega), if_neg (by omega), if_neg (by omega)]
  spsr := Spsrs.get_set_same _ (by cases e <;> rfl) _
  otherSpsrs m hm := Spsrs.get_set_other _ hm _
  link v hv := by rw [State.tally_regs, enter_get s e (by cases e <;> decide), if_pos rfl, hret v hv]
  pc := rfl
  latch := rfl
  regs p hp := by
    obtain ⟨hlink, hpc⟩ : p ≠ bank14 e.mode ∧ p ≠ .r15 := by simpa using hp
    rw [State.tally_regs, enter_get s e hpc, if_neg hlink]
  bus := SameBus.of_eq rfl
  control := ⟨rfl, rfl, rfl, rfl, rfl, rfl, rfl, rfl⟩

theorem isize_arm (h : s.thumb = false) : s.isize = 4#32 := by simp [State.isize, h]

theorem isize_thumb (h : s.thumb = true) : s.isize = 2#32 := by simp [State.isize, h]

/-- An entry whose row gives the next instruction's address, which is r15 less one instruction, and 3 cycles. -/
theorem enter_completes {e : Exception} {n : Word} (hret : s.returnAddress e = s.r15 - s.isize) (hn : s.isize = n) :
    Completes (.next ((s.enter e).tally 3)) fun t => Entered s e (some (s.r15 - n)) t ∧ t.cycles = s.cycles + 3 :=
  ⟨_, rfl, enter_tally_entered s e (by rintro v ⟨⟩; rw [hret, hn]) 3, rfl⟩

/-- Settles O30: each of the three instructions is its entry, whose link is r15 less one instruction of its state. -/
theorem softwareInterruptAndUndefined : Obligations.SoftwareInterruptAndUndefined := by
  intro s c comment value
  refine ⟨fun harm hc => ⟨?_, ?_⟩, fun hthumb => ?_⟩
  · rw [exec, execArmSwi, conditional_pass hc]
    exact enter_completes rfl (isize_arm harm)
  · rw [exec, execArmUnd, conditional_pass hc]
    exact enter_completes rfl (isize_arm harm)
  · exact enter_completes rfl (isize_thumb hthumb)

end Sys2Proof.Machine
end

section
/-! The Thumb ALU formats 1 to 5 and the address instructions of formats 12 and 13 (spec `44_thumb_alu.md` R380-R423). -/

namespace Sys2Proof.Machine

variable {s : State}

/-! ## Shifts (R380-R382, R393-R395, R398) -/

/-- Every row of the shifts writes its value with the carry of the shifter and the old V. -/
theorem thumbShiftRows_exec {imm5 : BitVec 5} {rs rd : LoReg} {i : Instr} {p : Word × Bool} {k : Nat}
    (h : (i, p, k) ∈ thumbShiftRows s imm5 rs rd) : exec i s = thumbWrite rd (s.shiftOut p) k s := by
  simp only [thumbShiftRows, lane_zero, List.mem_cons, List.not_mem_nil, or_false, Prod.mk.injEq] at h
  rcases h with ⟨rfl, rfl, rfl⟩ | ⟨rfl, rfl, rfl⟩ | ⟨rfl, rfl, rfl⟩ | ⟨rfl, rfl, rfl⟩ | ⟨rfl, rfl, rfl⟩ | ⟨rfl, rfl, rfl⟩ |
    ⟨rfl, rfl, rfl⟩ <;> rfl

/-- Settles O34: every row is the write of R411 on the shifter's value and carry. -/
theorem thumbShifts : Obligations.ThumbShifts := by
  intro s imm5 rs rd i p k h
  rw [thumbShiftRows_exec h]
  exact thumbWrite_spec rd (s.shiftOut p) k s

/-! ## Formats 2 to 4 and CMP of format 5 (R383-R392, R396, R397, R399-R406, R408) -/

/-- Every arithmetic row writes a result of `AddC`. -/
theorem thumbArithmeticRows_exec {rn rs rd : LoReg} {imm3 : BitVec 3} {imm8 : BitVec 8} {r : ResultRow}
    (h : r ∈ thumbArithmeticRows s rn rs rd imm3 imm8) : exec r.instr s = thumbWrite rd ⟨r.value, r.carry, r.overflow⟩ 1 s := by
  simp only [thumbArithmeticRows, BitVec.ofNat_toNat, List.mem_cons, List.not_mem_nil, or_false] at h
  rcases h with rfl | rfl | rfl | rfl | rfl | rfl | rfl | rfl | rfl
  · exact congrArg (thumbWrite rd · 1 s) (addC_sumRow _ _ _ _)
  · exact congrArg (thumbWrite rd · 1 s) (addC_differenceRow _ _ _ _)
  · exact congrArg (thumbWrite rd · 1 s) (addC_sumRow _ _ _ _)
  · exact congrArg (thumbWrite rd · 1 s) (addC_differenceRow _ _ _ _)
  · exact congrArg (thumbWrite rd · 1 s) (addC_sumRow _ _ _ _)
  · exact congrArg (thumbWrite rd · 1 s) (addC_differenceRow _ _ _ _)
  · exact congrArg (thumbWrite rd · 1 s) (addC_sumRow _ _ _ _)
  · exact congrArg (thumbWrite rd · 1 s) (addC_differenceRow _ _ _ _)
  · exact congrArg (thumbWrite rd · 1 s) (addC_differenceRow _ _ _ _)

/-- Every logical row keeps C and V. -/
theorem thumbLogicalRows_exec {rs rd : LoReg} {imm8 : BitVec 8} {r : ResultRow} (h : r ∈ thumbLogicalRows s rs rd imm8) :
    exec r.instr s = thumbWrite rd ⟨r.value, r.carry, r.overflow⟩ 1 s := by
  simp only [thumbLogicalRows, BitVec.ofNat_toNat, List.mem_cons, List.not_mem_nil, or_false] at h
  rcases h with rfl | rfl | rfl | rfl | rfl | rfl <;> rfl

/-- Every row of the comparisons writes flags alone: TST keeps C and V, the others are results of `AddC`. -/
theorem thumbTestRows_exec {rs rd : LoReg} {hs hd : Reg} {imm8 : BitVec 8} {r : ResultRow}
    (h : r ∈ thumbTestRows s rs rd hs hd imm8) : exec r.instr s = thumbTest ⟨r.value, r.carry, r.overflow⟩ s := by
  simp only [thumbTestRows, BitVec.ofNat_toNat, List.mem_cons, List.not_mem_nil, or_false] at h
  rcases h with rfl | rfl | rfl | rfl | rfl
  · exact congrArg (thumbTest · s) (addC_differenceRow _ _ _ _)
  · rfl
  · exact congrArg (thumbTest · s) (addC_differenceRow _ _ _ _)
  · exact congrArg (thumbTest · s) (addC_sumRow _ _ _ _)
  · exact congrArg (thumbTest · s) (addC_differenceRow _ _ _ _)

/-- Settles O35: every row is the write or the test of R411 on the row's result, and MUL the write of the product. -/
theorem thumbAlu : Obligations.ThumbAlu := by
  intro s rn rs rd hs hd imm3 imm8
  refine ⟨fun r hr => ?_, fun r hr => ?_, ?_⟩
  · rw [(List.mem_append.mp hr).elim thumbArithmeticRows_exec thumbLogicalRows_exec]
    exact thumbWrite_spec rd _ 1 s
  · rw [thumbTestRows_exec hr]
    exact thumbTest_spec _ s
  · intro p
    have hp : s.x (lo rd) * s.x (lo rs) = p := by simp [p, BitVec.ofNat_mul]
    rw [← hp]
    exact thumbWrite_spec rd _ _ s

/-! ## ADD and MOV of format 5, formats 12 and 13 (R407, R409, R420-R423) -/

theorem lo_ne_pc (r : LoReg) : lo r ≠ 15#4 := by
  revert r; decide

theorem ofNat_two_pow (k : Nat) : BitVec.ofNat 32 (2 ^ k) = BitVec.twoPow 32 k :=
  BitVec.eq_of_toNat_eq (by rw [BitVec.toNat_ofNat, BitVec.toNat_twoPow])

/-- An unsigned offset in units of 2^k bytes. -/
theorem setWidth_shiftLeft_eq {n : Nat} (off : BitVec n) (k : Nat) :
    off.setWidth 32 <<< k = BitVec.ofNat 32 (2 ^ k * off.toNat) := by
  rw [BitVec.ofNat_mul, ofNat_two_pow, BitVec.twoPow_mul_eq_shiftLeft, BitVec.ofNat_toNat]

theorem times4_eq {n : Nat} (imm : BitVec n) : times4 imm = BitVec.ofNat 32 (4 * imm.toNat) :=
  setWidth_shiftLeft_eq imm 2

theorem pcBase_eq (s : State) : s.pcBase = s.r15 &&& ~~~2#32 := by
  rw [State.pcBase, x_pc]
  rfl

/-- Every row of the address instructions writes its destination and tallies the cycles of R412. -/
theorem thumbAddressRows_exec {hd hs : Reg} {rd : LoReg} {imm8 : BitVec 8} {imm7 : BitVec 7} {i : Instr} {r : Reg} {v : Word}
    (h : (i, r, v) ∈ thumbAddressRows s hd hs rd imm8 imm7) :
    exec i s = .next ((s.setX r v).tally (if r = 15#4 then 3 else 1)) := by
  simp only [thumbAddressRows, ← times4_eq, ← pcBase_eq, List.mem_cons, List.not_mem_nil, or_false, Prod.mk.injEq] at h
  rcases h with ⟨rfl, rfl, rfl⟩ | ⟨rfl, rfl, rfl⟩ | ⟨rfl, rfl, rfl⟩ | ⟨rfl, rfl, rfl⟩ | ⟨rfl, rfl, rfl⟩ | ⟨rfl, rfl, rfl⟩
  · rfl
  · rfl
  · rw [if_neg (lo_ne_pc rd)]; rfl
  · rw [if_neg (lo_ne_pc rd)]; rfl
  · rfl
  · rfl

/-- Settles O36: every row is one register write and a tally. -/
theorem thumbAddresses : Obligations.ThumbAddresses := by
  intro s hd hs rd imm8 imm7 i r v h
  exact ⟨_, thumbAddressRows_exec h, setX_tally_effect s r v _⟩

end Sys2Proof.Machine
end

section
/-! The branches of Thumb state: words, targets, the two halves of BL and the return by BX (spec `46_thumb_branch.md` R470-R475;
`44_thumb_alu.md` R410). -/

namespace Sys2Proof.Machine

variable {s t : State} {l : List PhysReg} {v : Word} {k : Nat}

/-! ## Words and offsets (R470, R472, R474, R475) -/

theorem decodeThumb_b {h : BitVec 16} (hr : h &&& 0xF800#16 = 0xE000#16) : decodeThumb h = .thumbB (h.extractLsb' 0 11) := by
  simp (disch := decide) [decodeThumb, matchesRow_eq_false hr, matchesRow_eq_true hr]

theorem decodeThumb_blSecond {h : BitVec 16} (hr : h &&& 0xF800#16 = 0xF800#16) :
    decodeThumb h = .thumbBlSecond (h.extractLsb' 0 11) := by
  simp (disch := decide) [decodeThumb, matchesRow_eq_false hr, matchesRow_eq_true hr, getElem_of_row hr]

theorem branchOffset8_eq (off : BitVec 8) : branchOffset8 off = BitVec.ofInt 32 (2 * off.toInt) :=
  signExtend_append_zeros off 1

theorem branchOffset11_eq (off : BitVec 11) : branchOffset11 off = BitVec.ofInt 32 (2 * off.toInt) :=
  signExtend_append_zeros off 1

/-- A signed offset in units of 2^k bytes. -/
theorem signExtend_shiftLeft_eq {n : Nat} (off : BitVec n) (k : Nat) :
    off.signExtend 32 <<< k = BitVec.ofInt 32 (2 ^ k * off.toInt) := by
  have hpow : BitVec.ofInt 32 (2 ^ k) = BitVec.twoPow 32 k := by
    rw [← ofNat_two_pow, ← BitVec.ofInt_natCast, Nat.cast_pow, Nat.cast_ofNat]
  rw [BitVec.ofInt_mul, hpow, BitVec.twoPow_mul_eq_shiftLeft, BitVec.signExtend]

/-! ## The second half of BL (R475) and the return (R410) -/

theorem regs_set_with_r15 (rf : Regs) {p : PhysReg} (hp : p ≠ .r15) (u v : Word) :
    { rf with r15 := v }.set p u = { rf.set p u with r15 := v } := by
  cases p with
  | r15 => exact absurd rfl hp
  | _ => rfl

/-- A register write and a write of pc commute. -/
theorem setX_writePc_comm (s : State) {i : Reg} (hi : i ≠ 15#4) (u v : Word) :
    (s.writePc v).setX i u = (s.setX i u).writePc v := by
  rw [State.setX_of_ne _ hi, State.setX_of_ne _ hi]
  exact congrArg (fun rf => { s with cpu := { s.cpu with regs := rf, latchValid := false } })
    (regs_set_with_r15 s.cpu.regs (phys_ne_r15 s.mode hi) u _)

/-- pc <- x[14] + 2 off11, and the link is the next instruction with bit 0 set. -/
theorem thumbBlSecond_spec (s : State) (off : BitVec 11) :
    Completes (exec (.thumbBlSecond off) s) fun t =>
      BranchStep s [phys s.mode 14#4] (s.x 14#4 + BitVec.ofNat 32 (2 * off.toNat)) s.cpu.cpsr 3 t ∧
      t.cpu.regs.get (phys s.mode 14#4) = (s.r15 - 2#32) ||| 1#32 := by
  have hlink := (Effect.refl s).setX 14#4 ((s.r15 - 2#32) ||| 1#32)
  rw [exec, execThumbBlSecond, x_pc, setWidth_shiftLeft_eq, setX_writePc_comm s (by decide)]
  exact ⟨_, rfl, hlink.branch (State.setX_bus s _ _) _ 3, (hlink.writePc _).regs.written 14#4 _ (by decide) rfl⟩

/-! A branch that keeps CPSR keeps the mode and T. -/

theorem BranchStep.mode (h : BranchStep s l v s.cpu.cpsr k t) : t.mode = s.mode := by
  rw [State.mode, h.cpsr, State.mode]

theorem BranchStep.thumb (h : BranchStep s l v s.cpu.cpsr k t) : t.thumb = s.thumb := by
  rw [State.thumb, h.cpsr, State.thumb]

theorem alignPc_thumb_or_one (v : Word) : alignPc true (v ||| 1#32) = alignPc true v := by
  simp [alignPc, BitVec.and_or_distrib_right]

/-- BX of either state through a register that holds `v` with bit 0 set goes to `v` in Thumb state. -/
theorem branchExchange_to_thumb {u : State} {rn : Reg} {i : Instr} (hx : u.x rn = v ||| 1#32)
    (hi : i = .armBx .al rn ∨ i = .thumbBx rn) :
    Completes (exec i u) fun w => w.thumb = true ∧ w.r15 = alignPc true v := by
  obtain ⟨w, hw, hbit, -, hstep⟩ := branchExchange u .al rn i (hi.imp_left fun h => ⟨h, rfl⟩)
  have hthumb : w.thumb = true := by simp [hbit, hx]
  refine ⟨w, hw, hthumb, ?_⟩
  rw [hstep.target, hthumb, hx, alignPc_thumb_or_one]

/-- Settles O43: the words by their rows, the branches and the first half of BL as one register write, the second half as the
link and then pc, and BX by the link's bit 0. -/
theorem thumbBranches : Obligations.ThumbBranches := by
  refine ⟨fun h => ⟨decodeThumb_b, decodeThumb_blSecond⟩, fun a => ?_, ⟨by decide, by decide, fun s ht hpc hlr => ?_⟩,
    fun s c off8 off11 => ⟨fun hc => ?_, ?_, ?_, ?_⟩⟩
  · calc a + 4#32 + BitVec.ofInt 32 (2 * (BitVec.extractLsb' 0 11 0xE7FE#16).toInt)
      _ = a + (4#32 + -4#32) := BitVec.add_assoc a _ _
      _ = a := BitVec.add_zero a
  · obtain ⟨t, he, hstep, hlink⟩ := thumbBlSecond_spec s 2#11
    refine ⟨t, he, ?_, ?_⟩
    · rw [hstep.target, hstep.thumb, ht, hlr]
      rfl
    · rw [State.x, hstep.mode, hlink, hpc]
      rfl
  · rw [exec, execThumbBcond, conditional_pass hc, x_pc, branchOffset8_eq]
    exact ⟨_, rfl, (Effect.refl s).branch rfl _ 3⟩
  · rw [exec, execThumbB, x_pc, branchOffset11_eq]
    exact ⟨_, rfl, (Effect.refl s).branch rfl _ 3⟩
  · rw [exec, execThumbBlFirst, x_pc, signExtend_shiftLeft_eq]
    exact ⟨_, rfl, setX_tally_effect s 14#4 _ 1⟩
  · obtain ⟨t, he, hstep, hlink⟩ := thumbBlSecond_spec s off11
    refine ⟨t, he, hstep, hlink, fun u i hu hi => branchExchange_to_thumb (rn := 14#4) ?_ ?_⟩
    · rw [hu, State.x, hstep.mode, hlink]
    · simpa [or_comm] using hi

end Sys2Proof.Machine
end

section
/-! The Thumb loads and stores: the single transfers, PUSH and POP, STMIA and LDMIA (spec `45_thumb_load_store.md` R430-R455). -/

namespace Sys2Proof.Machine

variable {s t : State}

/-! ## Single transfers (R430-R447) -/

theorem thumbLoad_spec (k : LoadKind) (rd : LoReg) (addr : Word) (s : State) :
    Completes (thumbLoad k rd addr s) (LoadStep s addr (k.width addr) [(lo rd, loadedValue s k addr)] 3) := by
  rw [thumbLoad, ← load_eq_loadedValue]
  refine ⟨_, rfl, Effect.loadStep ?_ (State.setX_bus _ _ _)⟩
  exact ((((Effect.refl s).afterRead _ _).setX _ _).tally 3).zero_add

theorem thumbStore_spec {addr : Word} {w : Width} (rd : LoReg) (h : StoreReady s addr w) :
    Completes (thumbStore w rd addr s) (StoreStep s addr w (s.x (lo rd)) [] 2) :=
  (((Effect.refl s).memWrite _ _ _).tally 2).zero_add.storeStep h rfl

/-- The offset of a halfword transfer. -/
theorem times2_eq {n : Nat} (imm : BitVec n) : imm.setWidth 32 <<< 1 = BitVec.ofNat 32 (2 * imm.toNat) :=
  setWidth_shiftLeft_eq imm 1

/-- Every row of the loads is the load of its kind at its address. -/
theorem thumbLoadRows_exec {ro rb rd : LoReg} {imm5 : BitVec 5} {imm8 : BitVec 8} {i : Instr} {k : LoadKind} {addr : Word}
    (h : (i, k, addr) ∈ thumbLoadRows s ro rb rd imm5 imm8) : exec i s = thumbLoad k rd addr s := by
  simp only [thumbLoadRows, ← times4_eq, ← times2_eq, ← pcBase_eq, BitVec.ofNat_toNat, List.mem_cons, List.not_mem_nil,
    or_false, Prod.mk.injEq] at h
  rcases h with ⟨rfl, rfl, rfl⟩ | ⟨rfl, rfl, rfl⟩ | ⟨rfl, rfl, rfl⟩ | ⟨rfl, rfl, rfl⟩ | ⟨rfl, rfl, rfl⟩ | ⟨rfl, rfl, rfl⟩ |
    ⟨rfl, rfl, rfl⟩ | ⟨rfl, rfl, rfl⟩ | ⟨rfl, rfl, rfl⟩ | ⟨rfl, rfl, rfl⟩ <;> rfl

/-- Every row of the stores is the store of its width at its address. -/
theorem thumbStoreRows_exec {ro rb rd : LoReg} {imm5 : BitVec 5} {imm8 : BitVec 8} {i : Instr} {w : Width} {addr : Word}
    (h : (i, w, addr) ∈ thumbStoreRows s ro rb rd imm5 imm8) : exec i s = thumbStore w rd addr s := by
  simp only [thumbStoreRows, ← times4_eq, ← times2_eq, BitVec.ofNat_toNat, List.mem_cons, List.not_mem_nil, or_false,
    Prod.mk.injEq] at h
  rcases h with ⟨rfl, rfl, rfl⟩ | ⟨rfl, rfl, rfl⟩ | ⟨rfl, rfl, rfl⟩ | ⟨rfl, rfl, rfl⟩ | ⟨rfl, rfl, rfl⟩ | ⟨rfl, rfl, rfl⟩ |
    ⟨rfl, rfl, rfl⟩ <;> rfl

/-- Settles O37: every row is the load of R447 into Rd. -/
theorem thumbLoads : Obligations.ThumbLoads := by
  intro s ro rb rd imm5 imm8 i k addr h
  rw [thumbLoadRows_exec h]
  exact thumbLoad_spec k rd addr s

/-- Settles O38: every row is the store of R447 from Rd. -/
theorem thumbStores : Obligations.ThumbStores := by
  intro s ro rb rd imm5 imm8 i w addr h hready
  rw [thumbStoreRows_exec h]
  exact thumbStore_spec rd hready

/-! ## Lists of low registers -/

/-- A list of eight bits names nothing above r7. -/
theorem listedBelow_setWidth (list : BitVec 8) {k : Nat} (hk : 8 ≤ k) : listedBelow k (list.setWidth 16) = popRegs list := by
  induction k, hk using Nat.le_induction with
  | base => exact (regList_eq_listedBelow _ 8).symm
  | succ k hk ih =>
    have hbit : (list.setWidth 16).getLsbD k = false := by
      rw [BitVec.getLsbD_setWidth, BitVec.getLsbD_of_ge list k hk, Bool.and_false]
    rw [← ih, ← regList_eq_listedBelow, ← regList_eq_listedBelow, regList, hbit]
    simp

theorem ne_pc_of_mem_popRegs {list : BitVec 8} {r : Reg} (h : r ∈ popRegs list) : r ≠ 15#4 := by
  rw [← listedBelow_setWidth list (k := 15) (by decide)] at h
  exact ne_15_of_mem_listedBelow h

theorem ne_pc_of_mem_pushRegs {lr : Bool} {list : BitVec 8} {r : Reg} (h : r ∈ pushRegs lr list) : r ≠ 15#4 := by
  rcases List.mem_append.mp h with hlow | hlink
  · exact ne_pc_of_mem_popRegs hlow
  · cases lr with
    | false => simp at hlink
    | true =>
      rw [List.mem_singleton.mp hlink]
      decide

theorem length_popRegs_le (list : BitVec 8) : (popRegs list).length ≤ 8 := by
  rw [← listedBelow_setWidth list (le_refl 8)]
  simpa [listedBelow] using List.length_filter_le (fun j => (list.setWidth 16).getLsbD j) (List.range 8)

theorem length_pushRegs_le (lr : Bool) (list : BitVec 8) : (pushRegs lr list).length ≤ 9 := by
  have hlow : (regList (list.setWidth 16) 8).length ≤ 8 := length_popRegs_le list
  rw [pushRegs, List.length_append]
  cases lr <;> simp <;> omega

/-! ## PUSH (R450) -/

theorem blockData_of_ne_pc (s : State) {r : Reg} (h : r ≠ 15#4) : s.blockData false r = s.x r := by
  rw [State.blockData, if_neg h]
  rfl

/-- Into plain storage the words change storage alone, then r13 is written. -/
theorem push_eq {lr : Bool} {list : BitVec 8} (hp : allPlain (s.pushBase lr list) (pushRegs lr list).length) :
    s.push lr list = State.setX
      { s with bus := { s.bus with mem := storeWords s.bus.mem (s.pushBase lr list) ((pushRegs lr list).map s.x) } }
      13#4 (s.pushBase lr list) := by
  have hdata : (pushRegs lr list).map (s.blockData false) = (pushRegs lr list).map s.x :=
    List.map_congr_left fun r hr => blockData_of_ne_pc s (ne_pc_of_mem_pushRegs hr)
  rw [State.push, storeRegs_none hp, hdata]

/-- Settles O39: the words in one update of storage, then r13. -/
theorem thumbPush : Obligations.ThumbPush := by
  intro s lr list hr hwf l sp hp
  have hl : pushRegs lr list = l := by rw [pushRegs, regList_eq_listedBelow]
  have hsp : s.pushBase lr list = sp := by rw [State.pushBase, hl]
  rw [← hl, ← hsp] at hp ⊢
  rw [exec, execThumbPush, push_eq hp]
  refine ⟨_, finish_next hr, ((((Effect.refl s).withBus _).setX 13#4 _).tally _).zero_add,
    blockStore_of_storeWords hwf ?_ (by simpa using hp) rfl⟩
  rw [List.length_map]
  exact (length_pushRegs_le lr list).trans (by decide)

/-! ## POP (R451) -/

/-- The loop of loads over a list of eight bits. -/
theorem Effect.loadLowRegs {fl : Bool × Bool × Bool × Bool} {writes : List (Reg × Word)} {k : Nat} {a : Word}
    {list : BitVec 8} (h : Effect s writes fl k t) (he : noEeprom t a (popRegs list).length) :
    Effect s (writes ++ blockLoads t.bus t.r15 a (popRegs list)) fl k (t.loadRegs false (popRegs list) a) ∧
      (t.loadRegs false (popRegs list) a).bus = t.bus ∧ (t.loadRegs false (popRegs list) a).r15 = t.r15 :=
  h.loadRegs (fun _ hr => ne_pc_of_mem_popRegs hr) he

section
variable {list : BitVec 8}

/-- With pc, r13 passes one more word, whose value goes to pc. -/
theorem pop_pc_eq (he : noEeprom s (s.x 13#4) ((popRegs list).length + 1)) :
    s.pop true list =
      ((s.loadRegs false (popRegs list) (s.x 13#4)).setX 13#4 (wordAt (s.x 13#4) ((popRegs list).length + 1))).writePc
        (readRaw s.bus s.r15 (wordAt (s.x 13#4) (popRegs list).length) .word) := by
  obtain ⟨-, hbus, hr15⟩ := (Effect.refl s).loadLowRegs (list := list) (a := s.x 13#4) fun j hj => he j (by omega)
  have hend : s.popEnd list = wordAt (s.x 13#4) (popRegs list).length := rfl
  have hread := State.afterRead_of_noEeprom (s := s.loadRegs false (popRegs list) (s.x 13#4)) (w := .word)
    (by rw [hbus]; exact he (popRegs list).length (by omega))
  simp only [State.pop, if_true, hend, hread, State.readRaw, hbus, hr15, wordAt_add_four]

theorem execThumbPop_noPc (he : noEeprom s (s.x 13#4) (popRegs list).length) :
    Completes (exec (.thumbPop false list) s) (RegisterEffect s
      (blockLoads s.bus s.r15 (s.x 13#4) (popRegs list) ++ [(13#4, wordAt (s.x 13#4) (popRegs list).length)])
      s.nzcv ((popRegs list).length + 2)) := by
  obtain ⟨heffect, hbus, -⟩ := (Effect.refl s).loadLowRegs he
  exact ⟨_, rfl, ((heffect.setX 13#4 (s.popEnd list)).tally _).zero_add,
    SameBus.of_eq ((State.setX_bus _ 13#4 (s.popEnd list)).trans hbus)⟩

theorem execThumbPop_pc (he : noEeprom s (s.x 13#4) ((popRegs list).length + 1)) :
    Completes (exec (.thumbPop true list) s) (RegisterEffect s
      (blockLoads s.bus s.r15 (s.x 13#4) (popRegs list) ++ [(13#4, wordAt (s.x 13#4) ((popRegs list).length + 1))] ++
        [(15#4, readRaw s.bus s.r15 (wordAt (s.x 13#4) (popRegs list).length) .word)])
      s.nzcv ((popRegs list).length + 5)) := by
  obtain ⟨heffect, hbus, -⟩ := (Effect.refl s).loadLowRegs (list := list) (a := s.x 13#4) fun j hj => he j (by omega)
  rw [exec, execThumbPop, pop_pc_eq he]
  exact ⟨_, rfl, (((heffect.setX 13#4 _).writePc _).tally _).zero_add, SameBus.of_eq ((State.setX_bus _ _ _).trans hbus)⟩

end

/-- Settles O40: the load loop and r13, then with pc the last word. -/
theorem thumbPop : Obligations.ThumbPop := by
  intro s pc list l n he
  have hl : l = popRegs list := listedBelow_setWidth list (le_refl 8)
  simp only [n, hl] at he ⊢
  cases pc with
  | false => simpa [wordAt] using execThumbPop_noPc he
  | true => exact execThumbPop_pc he

/-! ## STMIA and LDMIA (R452, R453) -/

/-- Settles O42: the write-back, then the loop of loads. -/
theorem thumbLdmia : Obligations.ThumbLdmia := by
  intro s rb list l he
  have hl : l = popRegs list := listedBelow_setWidth list (le_refl 8)
  rw [hl] at he ⊢
  have hr15 : (s.setX (lo rb) (s.multipleEnd rb list)).r15 = s.r15 := State.setX_r15 s (lo_ne_pc rb) _
  have hbus : (s.setX (lo rb) (s.multipleEnd rb list)).bus = s.bus := State.setX_bus s _ _
  obtain ⟨heffect, hsame, -⟩ := ((Effect.refl s).setX (lo rb) (s.multipleEnd rb list)).loadLowRegs (list := list)
    (a := s.x (lo rb)) (by unfold noEeprom; rwa [hbus])
  rw [hr15, hbus] at heffect
  exact ⟨_, rfl, (heffect.tally _).zero_add, SameBus.of_eq (hsame.trans hbus)⟩

/-- STMIA is the ARM instruction STMIA with write-back, on the same registers. -/
theorem exec_thumbStmia (s : State) (rb : LoReg) (list : BitVec 8) :
    exec (.thumbStmia rb list) s = exec (.armStm .al ⟨false, true, false, true⟩ (lo rb) (list.setWidth 16)) s := by
  have hlisted : listed (list.setWidth 16) = popRegs list := by rw [listed_eq, listedBelow_setWidth list (by decide)]
  have hempty : list.setWidth 16 = 0#16 ↔ list = 0#8 := by bv_omega
  have hstm : s.stm ⟨false, true, false, true⟩ (lo rb) (list.setWidth 16) = s.stmia rb list := by
    simp only [State.stm, State.stmia, State.multipleEnd, blockFinal, blockStart, listSpan, listCount, hlisted, hempty]
    rfl
  rw [exec, exec, execThumbStmia, execArmStm, conditional_pass rfl, hstm, listCount, hlisted]

/-- In the current mode's view a register other than r15 is stored moved if it is the base and not the first. -/
theorem stmData_writeBack {m : BlockMode} (hpsr : m.psr = false) (hwback : m.wback = true) (s : State) (rn : Reg)
    (final : Word) (j : Nat) {i : Reg} (hi : i ≠ 15#4) :
    stmData s m rn final j i = if i = rn ∧ 0 < j then final else s.x i := by
  have hphys : phys s.mode rn = phys s.mode i ↔ i = rn := ⟨fun h => (phys_inj _ h).symm, fun h => by rw [h]⟩
  simp [stmData, hpsr, hwback, hi, hphys, State.x, and_comm]

/-- Settles O41: the ARM instruction's words, where a low register is stored moved if it is the base and not the first. -/
theorem thumbStmia : Obligations.ThumbStmia := by
  intro s rb list hr hwf l final hp
  have hlow : l = popRegs list := listedBelow_setWidth list (le_refl 8)
  have hl : listedBelow 16 (list.setWidth 16) = l := (listedBelow_setWidth list (by decide)).trans hlow.symm
  have hne (i : Reg) (hi : i ∈ l) : i ≠ 15#4 := ne_pc_of_mem_popRegs (hlow ▸ hi)
  have hwords : stmWords s ⟨false, true, false, true⟩ (lo rb) final l =
      l.zipIdx.map fun p => if p.1 = lo rb ∧ 0 < p.2 then final else s.x p.1 :=
    List.map_congr_left fun p hp => stmData_writeBack rfl rfl s (lo rb) final p.2 (hne p.1 (List.fst_mem_of_mem_zipIdx hp))
  have hstm := stmStores s .al ⟨false, true, false, true⟩ (lo rb) (list.setWidth 16) rfl hr hwf
  rw [hl] at hstm
  rw [exec_thumbStmia, ← hwords]
  exact hstm hp

end Sys2Proof.Machine
end

section
/-! The interrupt request flags, the addresses of a DMA run and its completion (spec `50_dma.md` R494-R505, `60_exceptions.md`
R541). -/

namespace Sys2Proof.Machine

/-! ## Interrupt request flags (R541) -/

theorem getLsbD_flag (k : Nat) {j : Nat} (hj : j < 16) : (1#16 <<< k).getLsbD j = decide (j = k) := by
  rw [BitVec.getLsbD_shiftLeft, BitVec.getLsbD_one]
  by_cases hlt : j < k
  · simp [hlt, hlt.ne]
  · have hzero : j - k = 0 ↔ j = k := by omega
    simp [hj, hlt, hzero]

theorem getLsbD_raiseIrq (k : Nat) (b : Bus) {j : Nat} (hj : j < 16) :
    (raiseIrq k b).io.irf.getLsbD j = (b.io.irf.getLsbD j || decide (j = k)) := by
  rw [raiseIrq, BitVec.getLsbD_or, getLsbD_flag k hj]

section

variable (p : Prop) [Decidable p] (k : Nat) (b : Bus)

/-- A request under a condition sets one flag. -/
theorem getLsbD_ite_raiseIrq {j : Nat} (hj : j < 16) :
    (if p then raiseIrq k b else b).io.irf.getLsbD j = (b.io.irf.getLsbD j || (decide (j = k) && decide p)) := by
  by_cases hp : p
  · rw [if_pos hp, getLsbD_raiseIrq k b hj, decide_eq_true hp, Bool.and_true]
  · rw [if_neg hp, decide_eq_false hp, Bool.and_false, Bool.or_false]

theorem ite_raiseIrq_frame :
    (if p then raiseIrq k b else b) = { b with io := { b.io with irf := (if p then raiseIrq k b else b).io.irf } } := by
  split <;> rfl

end

/-! ## The addresses of a run (R494, R497) -/

/-- A channel after `n` units. -/
def DmaChannel.moved (n : Nat) (d : DmaChannel) : DmaChannel :=
  { d with
    src := d.src + BitVec.ofInt 32 (n * signedStep (d.cntH.extractLsb' 7 2) d.width.bytes)
    dst := d.dst + BitVec.ofInt 32 (n * signedStep (d.cntH.extractLsb' 5 2) d.width.bytes)
    remaining := d.remaining - n }

theorem DmaChannel.moved_zero (d : DmaChannel) : d.moved 0 = d := by
  simp [DmaChannel.moved]

theorem DmaChannel.moved_succ (d : DmaChannel) (n : Nat) : d.moved (n + 1) = (d.advance d.width).moved n := by
  rw [DmaChannel.moved, ← add_ofInt_steps, ← add_ofInt_steps, ← d.sstep_eq d.width, ← d.dstep_eq d.width, Nat.add_comm n 1,
    ← Nat.sub_sub]
  rfl

theorem dmaUnits_get {c : Fin 4} {n : Nat} {b : Bus} (edge : Fin 4 → Bus → Bus) (r15 : Word)
    (h : (b.io.dma.get c).AvoidsIo n) : (dmaUnits edge r15 c n b).io.dma.get c = (b.io.dma.get c).moved n := by
  induction n generalizing b with
  | zero => exact (DmaChannel.moved_zero _).symm
  | succ n ih =>
    have hunit : (dmaUnit edge r15 c b).io.dma.get c = (b.io.dma.get c).advance (b.io.dma.get c).width := by
      rw [dmaUnit_io edge r15 h.first, Four.get_set_same]
    rw [dmaUnits, ih (hunit ▸ h.rest), hunit, DmaChannel.moved_succ]

theorem DmaChannel.width_bytes (d : DmaChannel) : d.width.bytes = if d.cntH.getLsbD 10 then 4 else 2 :=
  apply_ite Width.bytes _ _ _

/-- Settles O50: by induction on the units, each of which moves the channel by one step. -/
theorem dmaUnitsAdvance : Obligations.DmaUnitsAdvance := by
  intro edge r15 c n b d unit step h
  have hstep (mode : BitVec 2) : step mode = signedStep mode d.width.bytes := by
    rw [DmaChannel.width_bytes, signedStep, Nat.cast_ite]
    rfl
  simp only [hstep] at h ⊢
  rw [dmaUnits_get edge r15 h]
  exact ⟨rfl, rfl, rfl, rfl, rfl, rfl, rfl⟩

/-! ## The completion of a run (R504, R505) -/

/-- Only the request flags and the channel change. -/
theorem dmaComplete_frame (c : Fin 4) (b : Bus) :
    dmaComplete c b = { b with io := { b.io with
      irf := (dmaComplete c b).io.irf
      dma := b.io.dma.set c (dmaCompleteChannel c (b.io.dma.get c)) } } := by
  unfold dmaComplete
  split <;> rfl

theorem dmaComplete_irf (c : Fin 4) (b : Bus) {k : Nat} (hk : k < 16) :
    (dmaComplete c b).io.irf.getLsbD k =
      (b.io.irf.getLsbD k || (decide (k = 8 + c.val) && (b.io.dma.get c).cntH.getLsbD 14)) := by
  have hbit := getLsbD_ite_raiseIrq ((b.io.dma.get c).cntH.getLsbD 14 = true) (8 + c.val) b hk
  rwa [Bool.decide_eq_true] at hbit

theorem dmaComplete_get (c : Fin 4) (b : Bus) :
    (dmaComplete c b).io.dma.get c = dmaCompleteChannel c (b.io.dma.get c) := by
  rw [dmaComplete_frame, Four.get_set_same]

section

variable (c : Fin 4) {d : DmaChannel}

theorem dmaCompleteChannel_repeats (h : d.cntH.getLsbD 9 = true) :
    dmaCompleteChannel c d = { d with
      remaining := dmaCount c d
      dst := if d.cntH.extractLsb' 5 2 = 3#2 then d.width.align d.dad else d.dst } :=
  if_pos h

theorem dmaCompleteChannel_ends (h : d.cntH.getLsbD 9 = false) :
    dmaCompleteChannel c d = { d with cntH := d.cntH &&& 0x7FFF#16 } :=
  if_neg (by rw [h]; decide)

/-- Clearing ENABLE. -/
theorem getLsbD_disabled (x : BitVec 16) {k : Nat} (hk : k < 16) :
    (x &&& 0x7FFF#16).getLsbD k = if k = 15 then false else x.getLsbD k := by
  have hmask : ∀ k < 16, (0x7FFF#16).getLsbD k = !decide (k = 15) := by decide
  rw [BitVec.getLsbD_and, hmask k hk]
  by_cases h15 : k = 15 <;> simp [h15]

/-- A completion keeps all but destination, count and control. -/
theorem dmaCompleteChannel_frame (d : DmaChannel) :
    (dmaCompleteChannel c d).src = d.src ∧ (dmaCompleteChannel c d).sad = d.sad ∧ (dmaCompleteChannel c d).dad = d.dad ∧
      (dmaCompleteChannel c d).cntL = d.cntL := by
  unfold dmaCompleteChannel
  split <;> exact ⟨rfl, rfl, rfl, rfl⟩

theorem dmaCompleteChannel_timing (d : DmaChannel) :
    (dmaCompleteChannel c d).cntH.extractLsb' 12 2 = d.cntH.extractLsb' 12 2 := by
  cases h : d.cntH.getLsbD 9
  case true => rw [dmaCompleteChannel_repeats c h]
  case false =>
    rw [dmaCompleteChannel_ends c h]
    refine BitVec.eq_of_getLsbD_eq fun j hj => ?_
    rw [BitVec.getLsbD_extractLsb', BitVec.getLsbD_extractLsb', getLsbD_disabled _ (by omega), if_neg (by omega)]

end

/-- A channel with TIMING 0 is armed for no trigger. -/
theorem not_armed_of_immediate {d : DmaChannel} (h : d.cntH.extractLsb' 12 2 = 0#2) {k : BitVec 2} (hk : k ≠ 0#2) :
    d.armed k = false := by
  rw [DmaChannel.armed, h, beq_false_of_ne hk.symm, Bool.and_false]

/-- Settles O51: the request flag, the channel in its two cases, and TIMING, which a completion keeps. -/
theorem dmaCompletion : Obligations.DmaCompletion := by
  intro c b d t e
  have he : e = dmaCompleteChannel c d := dmaComplete_get c b
  obtain ⟨hsrc, hsad, hdad, hcntL⟩ := dmaCompleteChannel_frame c d
  rw [← he] at hsrc hsad hdad hcntL
  refine ⟨fun k hk => dmaComplete_irf c b hk, hsrc, hsad, hdad, hcntL, fun hrepeat => ?_, fun hends => ?_,
    fun c' hc => ?_, ?_, fun himm r15 => ?_⟩
  · rw [he, dmaCompleteChannel_repeats c hrepeat]
    refine ⟨dmaCount_eq c d, rfl, fun hmode => ?_, fun hmode => if_neg hmode⟩
    rw [if_pos hmode, toNat_align, DmaChannel.width_bytes]
  · rw [he, dmaCompleteChannel_ends c hends]
    exact ⟨rfl, rfl, fun k hk => getLsbD_disabled _ hk⟩
  · show (dmaComplete c b).io.dma.get c' = _
    rw [dmaComplete_frame]
    exact Four.get_set_other _ hc _
  · exact congrArg (fun u : Bus => { u with io := { u.io with irf := b.io.irf, dma := b.io.dma } }) (dmaComplete_frame c b)
  · have htiming : e.cntH.extractLsb' 12 2 = 0#2 := by rw [he, dmaCompleteChannel_timing, himm]
    have hnever {k : BitVec 2} (hk : k ≠ 0#2) : ¬ (t.io.dma.get c).armed k = true := by
      rw [Bool.not_eq_true]
      exact not_armed_of_immediate htiming hk
    exact ⟨fun k hk => if_neg (hnever hk), fun reg => if_neg (hnever (by decide))⟩

end Sys2Proof.Machine
end

section
/-! One timer's turn in a batch of cycles (spec `60_exceptions.md` R560-R565). -/

namespace Sys2Proof.Machine

/-! ## What a FIFO service leaves alone (R511, R515) -/

/-- The timers, the request flags and the choice of the timer that clocks each FIFO are as before. -/
structure SameTimers (io io' : Io) : Prop where
  timer : io'.timer = io.timer
  irf : io'.irf = io.irf
  soundcntH : io'.soundcntH = io.soundcntH

theorem SameTimers.refl (io : Io) : SameTimers io io := ⟨rfl, rfl, rfl⟩

theorem SameTimers.trans {io io' io'' : Io} (h : SameTimers io io') (h' : SameTimers io' io'') : SameTimers io io'' :=
  ⟨h'.timer.trans h.timer, h'.irf.trans h.irf, h'.soundcntH.trans h.soundcntH⟩

theorem Fifo.update_sameTimers (x : Fifo) (f : Nat → Nat) (io : Io) : SameTimers io (x.update f io) := by
  cases x <;> exact ⟨rfl, rfl, rfl⟩

theorem Fifo.fed_sameTimers (x : Fifo) (c : Fin 4) (n : Nat) (io : Io) : SameTimers io (x.fed c n io) := by
  obtain ⟨htimer, hirf, hsound⟩ := x.update_sameTimers feedWord^[n] io
  exact ⟨htimer, hirf, hsound⟩

theorem Fifo.overflow_sameTimers (x : Fifo) (r15 : Word) (c : Fin 4) (level : Nat) (b : Bus) :
    SameTimers b.io (x.overflow r15 c level b).io := by
  by_cases h : fifoArmed (b.io.dma.get c) ∧ level - 1 ≤ 16
  · rw [x.overflow_serves r15 h.1 h.2]
    exact (x.update_sameTimers _ b.io).trans (x.fed_sameTimers ..)
  · rw [x.overflow_takes r15 h]
    exact x.update_sameTimers (· - 1) b.io

theorem fifoOverflowA_sameTimers (r15 : Word) (t : Fin 4) (b : Bus) : SameTimers b.io (fifoOverflowA r15 t b).io := by
  by_cases h : (b.io.soundcntH.getLsbD 10).toNat = t.val
  · rw [fifoOverflowA_of_clocked h]
    exact Fifo.overflow_sameTimers ..
  · rw [fifoOverflowA, if_neg h]
    exact .refl _

theorem fifoOverflowB_sameTimers (r15 : Word) (t : Fin 4) (b : Bus) : SameTimers b.io (fifoOverflowB r15 t b).io := by
  by_cases h : (b.io.soundcntH.getLsbD 14).toNat = t.val
  · rw [fifoOverflowB_of_clocked h]
    exact Fifo.overflow_sameTimers ..
  · rw [fifoOverflowB, if_neg h]
    exact .refl _

theorem fifoTimerOverflow_sameTimers (r15 : Word) (t : Fin 4) (b : Bus) :
    SameTimers b.io (fifoTimerOverflow r15 t b).io :=
  (fifoOverflowA_sameTimers r15 t b).trans (fifoOverflowB_sameTimers r15 t _)

/-- A timer that clocks no FIFO has no service. -/
theorem fifoTimerOverflow_of_not_clocked {t : Fin 4} {b : Bus} (hA : (b.io.soundcntH.getLsbD 10).toNat ≠ t.val)
    (hB : (b.io.soundcntH.getLsbD 14).toNat ≠ t.val) (r15 : Word) : fifoTimerOverflow r15 t b = b := by
  rw [fifoTimerOverflow, fifoOverflowA, if_neg hA, fifoOverflowB, if_neg hB]

/-! ## Counting (R561, R562) -/

/-- The cycles per tick of a prescaler setting. -/
def prescale (mode : BitVec 2) : Nat :=
  if mode = 0#2 then 1 else if mode = 1#2 then 64 else if mode = 2#2 then 256 else 1024

theorem Timer.two_pow_shift (x : Timer) : 2 ^ x.shift = prescale (x.control.extractLsb' 0 2) := by
  unfold Timer.shift
  generalize x.control.extractLsb' 0 2 = mode
  revert mode
  decide

theorem Timer.count_cascades {x : Timer} {f : Bool} (hf : f = true) (hx : x.control.getLsbD 2 = true) (d carry : Nat) :
    x.count f d carry = { x with counter := x.counter + carry } := by
  rw [Timer.count, hf, hx]
  rfl

theorem Timer.count_prescales {x : Timer} {f : Bool} (h : ¬ (f = true ∧ x.control.getLsbD 2 = true)) (d carry : Nat) :
    x.count f d carry = { x with
      counter := x.counter + (x.acc + d) / prescale (x.control.extractLsb' 0 2)
      acc := (x.acc + d) % prescale (x.control.extractLsb' 0 2) } := by
  have hacc := Nat.mod_eq_sub_div_mul (x := x.acc + d) (k := 2 ^ x.shift)
  rw [Timer.count, if_neg (by simpa using h), ← x.two_pow_shift, hacc]
  simp only [Nat.shiftRight_eq_div_pow, Nat.shiftLeft_eq]

/-- The count of timer `t`, which cascades if it is not timer 0 and its control says so. -/
theorem Timer.count_eq (x : Timer) (t : Fin 4) (d carry : Nat) :
    x.count (t.val != 0) d carry = { x with
      counter := x.counter + if t.val ≠ 0 ∧ x.control.getLsbD 2 = true then carry
        else (x.acc + d) / prescale (x.control.extractLsb' 0 2)
      acc := if t.val ≠ 0 ∧ x.control.getLsbD 2 = true then x.acc
        else (x.acc + d) % prescale (x.control.extractLsb' 0 2) } := by
  by_cases h : t.val ≠ 0 ∧ x.control.getLsbD 2 = true
  · rw [Timer.count_cascades (bne_iff_ne.mpr h.1) h.2, if_pos h, if_pos h]
  · rw [Timer.count_prescales (fun hf => h ⟨bne_iff_ne.mp hf.1, hf.2⟩), if_neg h, if_neg h]

/-- The counter after its overflow, if it has one. -/
def Timer.wrapped (x : Timer) : Timer :=
  { x with counter := if 0xFFFF < x.counter then x.reload.toNat + (x.counter - 0x10000) else x.counter }

theorem Timer.wrapped_of_overflow {x : Timer} (h : 0xFFFF < x.counter) :
    x.wrapped = { x with counter := x.reload.toNat + (x.counter - 0x10000) } := by
  rw [Timer.wrapped, if_pos h]

theorem Timer.wrapped_of_no_overflow {x : Timer} (h : ¬ 0xFFFF < x.counter) : x.wrapped = x := by
  rw [Timer.wrapped, if_neg h]

/-! ## The turn (R562) -/

@[simp] theorem updTimer_get_same (t : Fin 4) (f : Timer → Timer) (b : Bus) :
    (updTimer t f b).io.timer.get t = f (b.io.timer.get t) :=
  Four.get_set_same ..

section

variable (r15 : Word) (d : Nat) (t : Fin 4) (b : Bus) (carry : Nat)

/-- The timer after its count, before the overflow test. -/
def countedTimer : Timer :=
  (b.io.timer.get t).count (t.val != 0) d carry

/-- The bus after count, overflow and FIFO service. -/
def servedBus : Bus :=
  let counted := updTimer t (fun _ => (countedTimer d t b carry).wrapped) b
  if 0xFFFF < (countedTimer d t b carry).counter ∧ t.val ≤ 1 then fifoTimerOverflow r15 t counted else counted

theorem servedBus_sameTimers :
    SameTimers (updTimer t (fun _ => (countedTimer d t b carry).wrapped) b).io (servedBus r15 d t b carry).io := by
  unfold servedBus
  dsimp only
  split
  · exact fifoTimerOverflow_sameTimers ..
  · exact .refl _

theorem countedTimer_control : (countedTimer d t b carry).control = (b.io.timer.get t).control := by
  unfold countedTimer Timer.count
  split <;> rfl

theorem timerStep_off (h : (b.io.timer.get t).control.getLsbD 7 = false) : timerStep r15 d t (b, carry) = (b, 0) :=
  if_pos h

/-- A running timer counts, wraps and is served, then raises its interrupt. -/
theorem timerStep_on (h : (b.io.timer.get t).control.getLsbD 7 = true) :
    timerStep r15 d t (b, carry) =
      (if 0xFFFF < (countedTimer d t b carry).counter ∧ (b.io.timer.get t).control.getLsbD 6 = true then
        raiseIrq (3 + t.val) (servedBus r15 d t b carry) else servedBus r15 d t b carry,
       if 0xFFFF < (countedTimer d t b carry).counter then 1 else 0) := by
  have hstep : timerStep r15 d t (b, carry) =
      if 0xFFFF < (countedTimer d t b carry).counter then
        (timerOverflow r15 t (updTimer t (fun _ => countedTimer d t b carry) b), 1)
      else (updTimer t (fun _ => countedTimer d t b carry) b, 0) := by
    rw [timerStep, if_neg (by rw [h]; decide)]
    simp only [updTimer_get_same]
    rfl
  have htimer : (servedBus r15 d t b carry).io.timer.get t = (countedTimer d t b carry).wrapped := by
    rw [(servedBus_sameTimers r15 d t b carry).timer, updTimer_get_same]
  rw [hstep]
  by_cases hover : 0xFFFF < (countedTimer d t b carry).counter
  · have hserved : (if t.val ≤ 1 then fifoTimerOverflow r15 t (updTimer t (fun _ => (countedTimer d t b carry).wrapped) b)
        else updTimer t (fun _ => (countedTimer d t b carry).wrapped) b) = servedBus r15 d t b carry :=
      if_congr (by rw [and_iff_right hover]) rfl rfl
    rw [if_pos hover, if_pos hover, timerOverflow, updTimer_updTimer, ← Timer.wrapped_of_overflow hover, hserved]
    simp only [htimer, hover, true_and]
    rw [Timer.wrapped, countedTimer_control]
  · rw [if_neg hover, if_neg hover, if_neg (fun h => hover h.1), servedBus, if_neg (fun h => hover h.1),
      Timer.wrapped_of_no_overflow hover]

end

/-- Settles O52: a timer that is off passes nothing on; one that runs counts, is served and raises its interrupt. -/
theorem timerBatch : Obligations.TimerBatch := by
  intro r15 d t b carry x div cascade count overflows y counted served p
  have hcount : countedTimer d t b carry =
      { x with counter := count, acc := if cascade then x.acc else (x.acc + d) % div } := Timer.count_eq x t d carry
  have hy : (countedTimer d t b carry).wrapped = y := by
    rw [hcount]
    rfl
  have hserved : servedBus r15 d t b carry = served := by
    rw [servedBus, hy, hcount]
  have hsame : SameTimers counted.io served.io := by
    have hsame := servedBus_sameTimers r15 d t b carry
    rwa [hy, hserved] at hsame
  refine ⟨fun hoff => timerStep_off r15 d t b carry hoff, fun hon => ?_⟩
  have hp : p = (if overflows ∧ x.control.getLsbD 6 = true then raiseIrq (3 + t.val) served else served,
      if overflows then 1 else 0) := by
    have hp := timerStep_on r15 d t b carry hon
    rwa [hserved, hcount] at hp
  have hframe : p.1 = { served with io := { served.io with irf := p.1.io.irf } } := by
    rw [hp]
    exact ite_raiseIrq_frame ..
  have htimer : p.1.io.timer = counted.io.timer := (congrArg (·.io.timer) hframe).trans hsame.timer
  refine ⟨?_, congrArg Prod.snd hp, fun k hk => ?_, fun t' ht => ?_, ?_, fun hclock => ?_⟩
  · rw [htimer]
    exact updTimer_get_same ..
  · rw [hp]
    refine (getLsbD_ite_raiseIrq _ _ _ hk).trans ?_
    rw [hsame.irf, Bool.decide_and, Bool.decide_eq_true, Bool.and_assoc]
    rfl
  · rw [htimer]
    exact Four.get_set_other _ ht _
  · exact congrArg (fun u : Bus => { u with io := { u.io with irf := b.io.irf } }) hframe
  · have hnone : served = counted := ite_eq_right_iff.mpr fun h =>
      fifoTimerOverflow_of_not_clocked (b := counted) (hclock h.2).1 (hclock h.2).2 r15
    rw [hnone] at hframe
    exact congrArg (fun u : Bus => { u with io := { u.io with irf := b.io.irf, timer := b.io.timer } }) hframe

end Sys2Proof.Machine
end

section
/-! An exception's entry, row by row (spec `60_exceptions.md` R531-R534). -/

namespace Sys2Proof.Machine

/-- Entry as the claims state it, with any return address that its row gives (R531). -/
theorem enter_entered (s : State) (e : Exception) {ret : Option Word} (hret : ∀ v, ret = some v → s.returnAddress e = v) :
    Entered s e ret (s.enter e) where
  mode := State.enter_mode s e
  irqMasked := by
    rw [State.flagI, State.enter_cpsr, getLsbD_entryCpsr _ _ 7 (by decide) (by decide)]
    rfl
  fiqMasked := by
    rw [State.flagF, State.enter_cpsr, getLsbD_entryCpsr _ _ 6 (by decide) (by decide)]
    cases e.masksFiq <;> rfl
  arm := State.enter_thumb s e
  status k h8 hk := by
    rw [State.enter_cpsr, getLsbD_entryCpsr _ _ k hk (by omega), if_neg (by omega), if_neg (by omega), if_neg (by omega)]
  spsr := State.enter_mode s e ▸ enter_spsr_mode s e
  otherSpsrs m hm := Spsrs.get_set_other _ hm _
  link v hv := by
    rw [enter_get s e (phys_14 e.mode ▸ phys_ne_r15 _ (by decide)), if_pos rfl, hret v hv]
  pc := State.enter_r15 s e
  latch := State.enter_latchValid s e
  regs p hp := by
    obtain ⟨h14, h15⟩ : p ≠ bank14 e.mode ∧ p ≠ .r15 := by simpa using hp
    rw [enter_get s e h15, if_neg h14]
  bus := SameBus.of_eq rfl
  control := ⟨rfl, rfl, rfl, rfl, rfl, rfl, rfl, rfl⟩

/-- Settles O31: the entry of R531, with the return address of each row of R532. -/
theorem exceptionEntry : Obligations.ExceptionEntry := by
  intro s e next bias
  refine ⟨enter_entered s e fun v hv => ?_, State.enter_cycles s e⟩
  cases e with
  | reset => cases hv
  | _ => exact Option.some.inj hv

end Sys2Proof.Machine
end

section
/-! Which action of the loop a step is, the turns of a halted CPU, and the interrupt sample (spec `60_exceptions.md` R545-R547,
R570-R576). -/

namespace Sys2Proof.Machine

variable {s t : State}

/-! ## Which action a step is (R575, R576) -/

/-- A step that no reset, refusal or fault overrides is one action of the loop. -/
theorem step_of_safe (h : s.Safe) (hreset : s.resetLine = false) : step s = loopStep s.popReset := by
  obtain ⟨hfatal, hrefusal⟩ := h
  simp only [step, machineStep, hreset, hrefusal, hfatal, Bool.false_eq_true, if_false]

/-- A step that answers a next state met no refusal and no fault. -/
theorem safe_of_step (hreset : s.resetLine = false) (ht : step s = .next t) : s.Safe := by
  simp only [step, machineStep, hreset, Bool.false_eq_true, if_false] at ht
  split at ht
  · cases ht
  · split at ht
    · cases ht
    · exact ⟨by assumption, by assumption⟩

theorem loopStep_of_inBudget (h : s.inBudget = true) : loopStep s = budgetStep s := by
  unfold State.inBudget at h
  unfold loopStep
  split at h
  · cases h
  · exact if_pos (of_decide_eq_true h)
  · exact if_pos (of_decide_eq_true h)

theorem loopStep_of_lineStart (h : s.seq = .lineStart) : loopStep s = lineStartStep s := by
  rw [loopStep, h]

theorem loopStep_of_drawEnd (h : s.seq = .hDraw) (hend : 1006 ≤ s.budgetPos) : loopStep s = drawEndStep s := by
  rw [loopStep, h]
  exact if_neg (Nat.not_lt.mpr hend)

theorem loopStep_of_lineEnd (h : s.seq = .hBlank) (hend : 226 ≤ s.budgetPos) : loopStep s = lineEndStep s := by
  rw [loopStep, h]
  exact if_neg (Nat.not_lt.mpr hend)

/-- Outside a budget the action is one of the three events. -/
theorem loopStep_of_not_inBudget (h : s.inBudget = false) :
    loopStep s = lineStartStep s ∨ loopStep s = drawEndStep s ∨ loopStep s = lineEndStep s := by
  unfold State.inBudget at h
  split at h
  case h_1 hseq => exact .inl (loopStep_of_lineStart hseq)
  case h_2 hseq => exact .inr (.inl (loopStep_of_drawEnd hseq (Nat.not_lt.mp (of_decide_eq_false h))))
  case h_3 hseq => exact .inr (.inr (loopStep_of_lineEnd hseq (Nat.not_lt.mp (of_decide_eq_false h))))

theorem budgetStep_halted (h : s.bus.run ≠ .run) : budgetStep s = .next (haltedStep s) := by
  unfold budgetStep
  split
  · exact absurd (by assumption) h
  · rfl
  · rfl

/-! ## HALT and STOP (R570, R571) -/

theorem irqPending_iff (b : Bus) : irqPending b = true ↔ b.io.ie &&& b.io.irf &&& 0x3FFF#16 ≠ 0#16 :=
  bne_iff_ne

theorem haltedStep_wakes (h : irqPending s.bus = true) : haltedStep s = { s with bus := { s.bus with run := .run } } :=
  if_pos h

theorem haltedStep_waits (h : ¬ irqPending s.bus = true) : haltedStep s = s.elapse 1 :=
  if_neg h

/-- Settles O55: the halted turn of the budget loop, by whether an enabled flag is set. -/
theorem haltWakes : Obligations.HaltWakes := by
  intro s hsafe hreset hbudget hrun
  obtain ⟨hfatal, -⟩ := id hsafe
  have hstep : step s = .next (haltedStep s.popReset) := by
    rw [step_of_safe hsafe hreset, loopStep_of_inBudget (s := s.popReset) hbudget,
      budgetStep_halted (s := s.popReset) hrun]
  by_cases hirq : irqPending s.bus = true
  · rw [haltedStep_wakes (s := s.popReset) hirq] at hstep
    exact ⟨_, hstep, rfl, hfatal, rfl, rfl, fun _ => ⟨rfl, rfl, rfl⟩, fun h => absurd h ((irqPending_iff _).mp hirq)⟩
  · rw [haltedStep_waits (s := s.popReset) hirq] at hstep
    exact ⟨_, hstep, rfl, hfatal, rfl, rfl, fun h => absurd ((irqPending_iff _).mpr h) hirq, fun _ => ⟨rfl, rfl, rfl⟩⟩

/-! ## The sample (R545, R547) -/

/-- The CPU and the host's FIQ queue are as before: nothing was sampled. -/
structure NoSample (s t : State) : Prop where
  cpu : t.cpu = s.cpu
  fiq : t.inputs.fiq = s.inputs.fiq

theorem NoSample.trans {u : State} (h : NoSample s t) (h' : NoSample t u) : NoSample s u :=
  ⟨h'.cpu.trans h.cpu, h'.fiq.trans h.fiq⟩

theorem closeBudget_noSample (s : State) (budget : Nat) : NoSample s (s.closeBudget budget) := ⟨rfl, rfl⟩

theorem event_noSample {f : Bus → Bus} {p : SeqPhase} (ht : finish ((s.event f).openBudget p) = .next t) :
    NoSample s t := by
  unfold finish at ht
  split at ht
  · cases ht
  · cases ht
    exact ⟨rfl, rfl⟩

theorem nextLine_noSample (s : State) : NoSample s (nextLine s) := by
  unfold nextLine State.frameBoundary
  split
  · split <;> exact ⟨rfl, rfl⟩
  · exact ⟨rfl, rfl⟩

theorem haltedStep_noSample (s : State) : NoSample s (haltedStep s) := by
  unfold haltedStep
  split <;> exact ⟨rfl, rfl⟩

theorem lineEndStep_noSample (ht : lineEndStep s = .next t) : NoSample s t := by
  rw [lineEndStep, Host.Outcome.next.injEq] at ht
  subst ht
  have hnext := (closeBudget_noSample s 226).trans (nextLine_noSample _)
  exact ⟨hnext.cpu, hnext.fiq⟩

/-- Only an executed instruction ends in a sample. -/
theorem loopStep_noSample (h : s.inBudget = false ∨ s.bus.run ≠ .run) (ht : loopStep s = .next t) : NoSample s t := by
  by_cases hbudget : s.inBudget = true
  · have hrun : s.bus.run ≠ .run := h.resolve_left (by rw [hbudget]; decide)
    rw [loopStep_of_inBudget hbudget, budgetStep_halted hrun] at ht
    cases ht
    exact haltedStep_noSample s
  · obtain hevent | hevent | hevent := loopStep_of_not_inBudget (Bool.not_eq_true _ ▸ hbudget)
    all_goals rw [hevent] at ht
    · exact event_noSample ht
    · rw [drawEndStep] at ht
      exact (closeBudget_noSample s 1006).trans (event_noSample ht)
    · exact lineEndStep_noSample ht

theorem irqSample_of_some {e : Exception} (h : s.sampledInterrupt = some e) : s.irqSample = s.popFiq.enter e := by
  rw [State.irqSample, h]

theorem irqSample_of_none (h : s.sampledInterrupt = none) : s.irqSample = s.popFiq := by
  rw [State.irqSample, h]

/-- Settles O54: the sample by the interrupt it enters, and the actions that do not sample. -/
theorem interruptSample : Obligations.InterruptSample := by
  refine ⟨fun s t hexec hfatal => ?_, fun s t hreset haction ht => ?_, fun s => ?_⟩
  · rw [cpuStep, hexec]
    simp only [State.retire, hfatal]
  · rw [step_of_safe (safe_of_step hreset ht) hreset] at ht
    obtain ⟨hcpu, hfiq⟩ := loopStep_noSample (s := s.popReset) haction ht
    exact ⟨hcpu, hfiq⟩
  · intro line irq
    have hfiq : (s.fiqLine && !s.flagF) = true ↔ line = true ∧ s.flagF = false := by
      rw [Bool.and_eq_true, Bool.not_eq_true']
      rfl
    have hirq : (!s.flagI && s.bus.io.ime && irqPending s.bus) = true ↔ irq := by
      rw [Bool.and_eq_true, Bool.and_eq_true, Bool.not_eq_true', irqPending_iff, and_assoc]
    refine ⟨fun h => irqSample_of_some (if_pos (hfiq.mpr h)), fun h hi => irqSample_of_some ?_,
      fun h hi => irqSample_of_none ?_, rfl⟩
    · rw [State.sampledInterrupt, if_neg (hfiq.not.mpr h), if_pos (hirq.mpr hi)]
    · rw [State.sampledInterrupt, if_neg (hfiq.not.mpr h), if_neg (hirq.not.mpr hi)]

end Sys2Proof.Machine
end

section
/-! The events of a scanline and the frame boundary (spec `60_exceptions.md` R575-R579, `50_dma.md` R502). -/

namespace Sys2Proof.Machine

/-! ## DISPSTAT and the request flags, bit by bit (R177, R541) -/

theorem getLsbD_setDispstat (k : Nat) (v : Bool) (b : Bus) {j : Nat} (hj : j < 16) :
    (setDispstat k v b).io.dispstat.getLsbD j = if j = k then v else b.io.dispstat.getLsbD j := by
  cases v
  · simp only [setDispstat, Bool.false_eq_true, if_false, BitVec.getLsbD_and, BitVec.getLsbD_not, getLsbD_flag k hj, hj]
    by_cases h : j = k <;> simp [h]
  · simp only [setDispstat, if_true, BitVec.getLsbD_or, getLsbD_flag k hj]
    by_cases h : j = k <;> simp [h]

/-- `u` is `b` with the bits of DISPSTAT and of the request flags as given. -/
structure Flagged (b : Bus) (flag raised : Nat → Bool) (u : Bus) : Prop where
  dispstat : ∀ j, j < 16 → u.io.dispstat.getLsbD j = flag j
  irf : ∀ j, j < 16 → u.io.irf.getLsbD j = raised j
  frame : { u with io := { u.io with dispstat := b.io.dispstat, irf := b.io.irf } } = b

section

variable {b u : Bus} {flag raised flag' raised' : Nat → Bool}

theorem Flagged.refl (b : Bus) : Flagged b b.io.dispstat.getLsbD b.io.irf.getLsbD b :=
  ⟨fun _ _ => rfl, fun _ _ => rfl, rfl⟩

theorem Flagged.congr (h : Flagged b flag raised u) (hflag : ∀ j, j < 16 → flag j = flag' j)
    (hraised : ∀ j, j < 16 → raised j = raised' j) : Flagged b flag' raised' u :=
  ⟨fun j hj => (h.dispstat j hj).trans (hflag j hj), fun j hj => (h.irf j hj).trans (hraised j hj), h.frame⟩

theorem Flagged.setDispstat (h : Flagged b flag raised u) (k : Nat) (v : Bool) :
    Flagged b (fun j => if j = k then v else flag j) raised (Machine.setDispstat k v u) where
  dispstat j hj := by rw [getLsbD_setDispstat k v u hj, h.dispstat j hj]
  irf := h.irf
  frame := h.frame

theorem Flagged.raiseIfEnabled (h : Flagged b flag raised u) {enable : Nat} (he : enable < 16) (k : Nat) :
    Flagged b flag (fun j => raised j || (decide (j = k) && flag enable)) (Machine.raiseIfEnabled enable k u) where
  dispstat j hj := by
    rw [Machine.raiseIfEnabled, ite_raiseIrq_frame]
    exact h.dispstat j hj
  irf j hj := by
    rw [Machine.raiseIfEnabled, getLsbD_ite_raiseIrq _ _ _ hj, h.irf j hj, h.dispstat enable he, Bool.decide_eq_true]
  frame := by
    rw [Machine.raiseIfEnabled, ite_raiseIrq_frame]
    exact h.frame

theorem Flagged.vcount (h : Flagged b flag raised u) : u.io.vcount = b.io.vcount :=
  congrArg (·.io.vcount) h.frame

/-- The bits fix the bus. -/
theorem Flagged.eq {flags requests : BitVec 16} (h : Flagged b flag raised u)
    (hflag : ∀ j, j < 16 → flags.getLsbD j = flag j) (hraised : ∀ j, j < 16 → requests.getLsbD j = raised j) :
    u = { b with io := { b.io with dispstat := flags, irf := requests } } := by
  obtain rfl : u.io.dispstat = flags :=
    BitVec.eq_of_getLsbD_eq fun j hj => (h.dispstat j hj).trans (hflag j hj).symm
  obtain rfl : u.io.irf = requests := BitVec.eq_of_getLsbD_eq fun j hj => (h.irf j hj).trans (hraised j hj).symm
  exact congrArg (fun v : Bus => { v with io := { v.io with dispstat := u.io.dispstat, irf := u.io.irf } }) h.frame

end

/-! ## Steps 1 to 3 of a line (R575, R577) -/

/-- The line is the one that DISPSTAT's high byte names. -/
def lineHit (b : Bus) : Bool :=
  decide (b.io.vcount = (b.io.dispstat.extractLsb' 8 8).toNat)

theorem Flagged.lineMatch (b : Bus) :
    Flagged b (fun j => if j = 1 then false else if j = 2 then lineHit b else b.io.dispstat.getLsbD j)
      (fun j => b.io.irf.getLsbD j || (decide (j = 2) && lineHit b && b.io.dispstat.getLsbD 5)) (Machine.lineMatch b) := by
  have hclear := ((Flagged.refl b).setDispstat 1 false).setDispstat 2 false
  have hline : (Machine.setDispstat 2 false (Machine.setDispstat 1 false b)).io.dispstat.extractLsb' 8 8 =
      b.io.dispstat.extractLsb' 8 8 := by
    refine BitVec.eq_of_getLsbD_eq fun j hj => ?_
    rw [BitVec.getLsbD_extractLsb', BitVec.getLsbD_extractLsb', hclear.dispstat (8 + j) (by omega), if_neg (by omega),
      if_neg (by omega)]
  rw [Machine.lineMatch, hclear.vcount, hline]
  by_cases hhit : b.io.vcount = (b.io.dispstat.extractLsb' 8 8).toNat
  · rw [if_pos hhit, lineHit, decide_eq_true hhit]
    refine ((hclear.setDispstat 2 true).raiseIfEnabled (enable := 5) (by decide) 2).congr (fun j _ => ?_) fun j _ => ?_
    · by_cases h2 : j = 2 <;> by_cases h1 : j = 1 <;> simp [h1, h2]
    · simp
  · rw [if_neg hhit, lineHit, decide_eq_false hhit]
    refine hclear.congr (fun j _ => ?_) fun j _ => ?_
    · by_cases h1 : j = 1 <;> simp [h1]
    · simp

/-- The flag and the request of the V-blank, before its transfers. -/
def vblankFlags (b : Bus) : Bus :=
  if b.io.vcount = 160 then raiseIfEnabled 3 0 (setDispstat 0 true b) else b

theorem lineVblank_eq (r15 : Word) (b : Bus) :
    lineVblank r15 b = if b.io.vcount = 160 then dmaTrigger 1#2 r15 (vblankFlags b) else vblankFlags b := by
  unfold lineVblank vblankFlags
  split <;> rfl

theorem Flagged.vblankFlags {b u : Bus} {flag raised : Nat → Bool} (h : Flagged b flag raised u) :
    Flagged b (fun j => if j = 0 then decide (b.io.vcount = 160) || flag 0 else flag j)
      (fun j => raised j || (decide (j = 0) && decide (b.io.vcount = 160) && flag 3)) (Machine.vblankFlags u) := by
  rw [Machine.vblankFlags, h.vcount]
  by_cases hline : b.io.vcount = 160
  · rw [if_pos hline, decide_eq_true hline]
    refine ((h.setDispstat 0 true).raiseIfEnabled (enable := 3) (by decide) 0).congr (fun j _ => ?_) fun j _ => ?_
    · simp
    · simp
  · rw [if_neg hline, decide_eq_false hline]
    refine h.congr (fun j _ => ?_) fun j _ => ?_
    · by_cases h0 : j = 0 <;> simp [h0]
    · simp

/-- Steps 5 and 6 of a line, after the transfers. -/
theorem Flagged.hblank (u : Bus) :
    Flagged u (fun j => decide (j = 1) || u.io.dispstat.getLsbD j)
      (fun j => u.io.irf.getLsbD j || (decide (j = 1) && u.io.dispstat.getLsbD 4))
      (Machine.raiseIfEnabled 4 1 (Machine.setDispstat 1 true u)) := by
  refine (((Flagged.refl u).setDispstat 1 true).raiseIfEnabled (enable := 4) (by decide) 1).congr (fun j _ => ?_)
    fun j _ => ?_
  · simp
  · simp

/-! ## Transfers triggered (R502) -/

theorem dmaTriggerOne_eq (k : BitVec 2) (r15 : Word) (c : Fin 4) (b : Bus) :
    dmaTriggerOne k r15 c b =
      if (b.io.dma.get c).cntH.getLsbD 15 = true ∧ (b.io.dma.get c).cntH.extractLsb' 12 2 = k then dmaRun 4 [] r15 c b
      else b :=
  if_congr (by rw [DmaChannel.armed, Bool.and_eq_true, beq_iff_eq]) rfl rfl

theorem dmaTrigger_eq_foldl (k : BitVec 2) (r15 : Word) (b : Bus) :
    dmaTrigger k r15 b = [0, 1, 2, 3].foldl (fun b c => dmaTriggerOne k r15 c b) b := rfl

/-! ## An event and its answer (R506, R575) -/

theorem finish_answers {s : State} {u : Bus} (hu : s.bus.refusal = u.refusal) {Q : State → Prop} (hQ : Q s) :
    (u.refusal = none → Completes (finish s) Q) ∧ ∀ r, u.refusal = some r → finish s = .refused r := by
  rw [← hu]
  exact ⟨fun h => ⟨s, finish_next h, hQ⟩, fun r h => by rw [finish, h]⟩

/-- What an event that closes a budget and opens the next leaves of the rest. -/
theorem closeEventOpen_fields (s : State) (budget : Nat) (f : Bus → Bus) (p : SeqPhase) :
    let t := ((s.closeBudget budget).event f).openBudget p
    t.cpu = s.cpu ∧ t.seq = p ∧ t.budgetCarry = s.budgetPos - budget ∧
      t.budgetPos = s.budgetPos - budget + t.bus.dmaCycles ∧ t.cycleCounter = s.cycleCounter ∧ t.inputs = s.inputs :=
  ⟨rfl, rfl, rfl, rfl, rfl, rfl⟩

/-! ## The next line (R575, R579) -/

@[simp] theorem frameBoundary_cpu (s : State) : s.frameBoundary.cpu = s.cpu := by
  unfold State.frameBoundary; split <;> rfl

@[simp] theorem frameBoundary_budgetCarry (s : State) : s.frameBoundary.budgetCarry = s.budgetCarry := by
  unfold State.frameBoundary; split <;> rfl

@[simp] theorem frameBoundary_vcount (s : State) : s.frameBoundary.bus.io.vcount = s.bus.io.vcount := by
  unfold State.frameBoundary; split <;> rfl

@[simp] theorem frameBoundary_dispstat (s : State) : s.frameBoundary.bus.io.dispstat = s.bus.io.dispstat := by
  unfold State.frameBoundary; split <;> rfl

theorem frameBoundary_keys (s : State) : s.frameBoundary.inputs.keys = s.inputs.keys.tail := by
  unfold State.frameBoundary
  split
  case h_1 hkeys => rw [hkeys]; rfl
  case h_2 hkeys => rw [hkeys]; rfl

theorem frameBoundary_keyinput {s : State} {v : BitVec 16} (h : s.inputs.keys.head? = some v) :
    s.frameBoundary.bus.io.keyinput = v &&& 0x03FF#16 := by
  obtain ⟨rest, hkeys⟩ := List.head?_eq_some_iff.mp h
  rw [State.frameBoundary, hkeys]

/-- The state after step 9 of a line, with what is carried over from the line's last budget. -/
structure NextLine (s : State) (carry : Nat) (t : State) : Prop where
  cpu : t.cpu = s.cpu
  budgetCarry : t.budgetCarry = carry
  vcount : t.bus.io.vcount = if s.bus.io.vcount + 1 = 228 then 0 else s.bus.io.vcount + 1
  inFrame : s.bus.io.vcount + 1 ≠ 228 → t.bus.io.dispstat = s.bus.io.dispstat ∧ t.inputs.keys = s.inputs.keys ∧
    t.bus.io.keyinput = s.bus.io.keyinput
  newFrame : s.bus.io.vcount + 1 = 228 → t.bus.io.dispstat.getLsbD 0 = false ∧ t.inputs.keys = s.inputs.keys.tail ∧
    ∀ v, s.inputs.keys.head? = some v → t.bus.io.keyinput = v &&& 0x03FF#16

theorem nextLine_spec (s : State) : NextLine s s.budgetCarry (nextLine s) := by
  by_cases hlast : s.bus.io.vcount + 1 = 228
  · rw [nextLine, if_pos hlast]
    refine ⟨frameBoundary_cpu _, frameBoundary_budgetCarry _, ?_, fun h => absurd hlast h,
      fun _ => ⟨?_, frameBoundary_keys _, fun v hv => frameBoundary_keyinput hv⟩⟩
    · rw [frameBoundary_vcount, if_pos hlast]
      rfl
    · rw [frameBoundary_dispstat]
      exact getLsbD_setDispstat 0 false _ (by decide)
  · rw [nextLine, if_neg hlast]
    exact ⟨rfl, rfl, (if_neg hlast).symm, fun _ => ⟨rfl, rfl, rfl⟩, fun h => absurd h hlast⟩

theorem closeNextLine_spec (s : State) (budget : Nat) :
    NextLine s (s.budgetPos - budget) (nextLine (s.closeBudget budget)) := by
  obtain ⟨hcpu, hcarry, hvcount, hin, hnew⟩ := nextLine_spec (s.closeBudget budget)
  exact ⟨hcpu, hcarry, hvcount, hin, hnew⟩

/-- Settles O56: the trigger as a fold over the channels, the two events by their flags, and the next line. -/
theorem scanlineEvents : Obligations.ScanlineEvents := by
  refine ⟨fun k r15 b => ?_, fun s flags raised hsafe hreset hseq => ?_,
    fun s flags raised hsafe hreset hseq hend => ?_, fun s hsafe hreset hseq hend => ?_⟩
  · rw [dmaTrigger_eq_foldl]
    simp only [dmaTriggerOne_eq]
  · intro io hit vblank hflag hraised b u
    have hset : vblankFlags (lineMatch { s.bus with dmaCycles := 0 }) = b :=
      (Flagged.lineMatch { s.bus with dmaCycles := 0 }).vblankFlags.eq hflag hraised
    have hbus : lineVblank s.r15 (lineMatch { s.bus with dmaCycles := 0 }) = u := by
      rw [lineVblank_eq, hset, (Flagged.lineMatch _).vcount]
      exact if_congr decide_eq_true_iff.symm rfl rfl
    rw [step_of_safe hsafe hreset, loopStep_of_lineStart (s := s.popReset) hseq, lineStartStep]
    have hpos := congrArg (fun v : Bus => s.budgetCarry + v.dmaCycles) hbus
    exact finish_answers (congrArg Bus.refusal hbus) ⟨rfl, hbus, rfl, hpos, rfl, rfl⟩
  · intro b u hflag hraised
    have hbus : lineHblank s.r15 { s.bus with dmaCycles := 0 } =
        { u with io := { u.io with dispstat := flags, irf := raised } } :=
      (Flagged.hblank u).eq hflag hraised
    obtain ⟨hcpu, hphase, hcarry, hpos, hcounter, hinputs⟩ :=
      closeEventOpen_fields s.popReset 1006 (lineHblank s.r15) .hBlank
    rw [step_of_safe hsafe hreset, loopStep_of_drawEnd (s := s.popReset) hseq hend, drawEndStep]
    have hrefusal := congrArg Bus.refusal hbus
    have hpos := hpos.trans (congrArg (fun v : Bus => s.budgetPos - 1006 + v.dmaCycles) hbus)
    exact finish_answers hrefusal ⟨hcpu, hbus, hphase, hcarry, hpos, hcounter, congrArg (·.keys) hinputs⟩
  · rw [step_of_safe hsafe hreset, loopStep_of_lineEnd (s := s.popReset) hseq hend]
    have hnext := closeNextLine_spec s.popReset 226
    exact ⟨_, rfl, hnext.cpu, rfl, hnext.budgetCarry, hnext.vcount, hnext.inFrame, hnext.newFrame⟩

end Sys2Proof.Machine
end
